-- ==== Sys2Proof/Word.lean ====
section
/-! DEFINITION. The words of the block and the level of the line. -/

namespace Sys2Proof

/-- A Byte of the Frame (10_state.md R25, R26). -/
abbrev Byte := BitVec 8

/-- A 32-bit register or bus word (20_memory.md R47). -/
abbrev Word := BitVec 32

/-- A Line Level (00_scope.md R10). -/
inductive Level where
  | low
  | high
deriving DecidableEq, Repr, Inhabited

end Sys2Proof
end

