-- ==== Sys2Proof/Syntax.lean ====
section
/-! DEFINITION. The commands of the block: the eight rows of spec/opcode_table.json. -/

namespace Sys2Proof

/-- A command, as written to CMD (30_encoding.md R56, R58). No command has an operand field (R57). -/
inductive Instr where
  /-- OP 0, 44_control.md R123. -/
  | nop
  /-- OP 1, 44_control.md R124. -/
  | read
  /-- OP 2, 44_control.md R125. -/
  | readBare
  /-- OP 3, 43_validator.md R114. -/
  | validate
  /-- OP 4, 40_transition_waiter.md R78. -/
  | waitLow
  /-- OP 5, 40_transition_waiter.md R79. -/
  | waitHigh
  /-- OP 6, 44_control.md R126. -/
  | reserved6
  /-- OP 7, 44_control.md R126. -/
  | reserved7
deriving DecidableEq, Repr

end Sys2Proof
end

