-- ==== Sys2Proof/WellFormed.lean ====
section
/-! DEFINITION. Which commands and which command words are well formed. -/

namespace Sys2Proof

/-- Every command is well formed: none has an operand field that could be out of range (30_encoding.md R57). -/
def Instr.wellFormed : Instr → Bool
  | .nop => true
  | .read => true
  | .readBare => true
  | .validate => true
  | .waitLow => true
  | .waitHigh => true
  | .reserved6 => true
  | .reserved7 => true

/-- A command is one 32-bit write: four bytes, no more and no fewer (30_encoding.md R56, R60). -/
def wellFormedLength (bytes : List Byte) : Bool :=
  bytes.length == 4

end Sys2Proof
end

