-- ==== Sys2Proof/Decode.lean ====
section
/-! DEFINITION. Decoding of command words, total, and the encoder. -/

namespace Sys2Proof

/-- Why a list of bytes is no command word. -/
inductive DecodeError where
  /-- Not 32 bits long (30_encoding.md R60: "There are no compressed, prefixed or variable-length commands"). -/
  | wrongLength (bytes : Nat)
deriving DecidableEq, Repr

/-- The opcode map read from OP (30_encoding.md R58). -/
def decodeOp (op : BitVec 3) : Instr :=
  match op with
  | 0b000#3 => .nop
  | 0b001#3 => .read
  | 0b010#3 => .readBare
  | 0b011#3 => .validate
  | 0b100#3 => .waitLow
  | 0b101#3 => .waitHigh
  | 0b110#3 => .reserved6
  | 0b111#3 => .reserved7

/-- `OP = bus_wdata[2:0]`, bits 31:3 ignored; total (30_encoding.md R56, R60). -/
def decodeWord (v : Word) : Instr :=
  decodeOp (v.extractLsb' 0 3)

/-- A word from its four bytes, the byte with bits 7:0 first (log entry 10). -/
def wordOfBytes (b0 b1 b2 b3 : Byte) : Word :=
  (b3 ++ b2 ++ b1 ++ b0).setWidth 32

/-- Decoding of any bytes: a command word, or a refusal by name. -/
def decodeBytes (bytes : List Byte) : Except DecodeError Instr :=
  match bytes with
  | [b0, b1, b2, b3] => .ok (decodeWord (wordOfBytes b0 b1 b2 b3))
  | other => .error (.wrongLength other.length)

/-- The OP of a command (30_encoding.md R58). -/
def Instr.opcode : Instr → BitVec 3
  | .nop => 0b000
  | .read => 0b001
  | .readBare => 0b010
  | .validate => 0b011
  | .waitLow => 0b100
  | .waitHigh => 0b101
  | .reserved6 => 0b110
  | .reserved7 => 0b111

/-- The word of a command with the given value in the ignored bits 31:3 (30_encoding.md R56). -/
def encodeWith (ignored : BitVec 29) (i : Instr) : Word :=
  (ignored ++ i.opcode).setWidth 32

/-- The word a host writes for a command, its ignored bits 0 (30_encoding.md R61). -/
def encode (i : Instr) : Word :=
  encodeWith 0 i

/-- A word's four bytes, the byte with bits 7:0 first (log entry 10). -/
def bytesOfWord (v : Word) : List Byte :=
  [v.extractLsb' 0 8, v.extractLsb' 8 8, v.extractLsb' 16 8, v.extractLsb' 24 8]

/-- The bytes of a command's word. -/
def encodeBytes (i : Instr) : List Byte :=
  bytesOfWord (encode i)

/-- The word with the bits of `w` below `nbits` and zeros above them. -/
def tableWord (nbits w : Nat) : Word :=
  BitVec.ofNat 32 (w % 2 ^ nbits)

/-- The command the decoder reads from a word given as the opcode table numbers its bits. No command is
longer than 32 bits (30_encoding.md R60). -/
def decodeTableWord (nbits w : Nat) : Option Instr :=
  if nbits ≤ 32 then
    match decodeBytes (bytesOfWord (tableWord nbits w)) with
    | .ok i => some i
    | .error _ => none
  else none

end Sys2Proof
end

