-- ==== Sys2Proof/Config.lean ====
section
/-! DEFINITION. What the spec leaves open: the clock rate and the inputs nobody has fixed. Neither constant has a body,
so no proof can lean on a value of it. -/

namespace Sys2Proof

/-- The five input ports of the block during one clock cycle (10_state.md R17; `clk` is the step itself). -/
structure Ports where
  rst : Bool
  lineIn : Level
  busWe : Bool
  busAddr : BitVec 6
  busWdata : Word
deriving DecidableEq, Repr, Inhabited

/-- CYCLES_PER_US − 1, so that CYCLES_PER_US is 1 to 65535 (00_scope.md R5: the one OPEN parameter).
Log entry 2. -/
opaque Config.cyclesPerUsPred : Fin 65535

/-- The input ports in a cycle for which the state holds no script, drawn by the number of edges passed
(00_scope.md R12: `Sample()` is "a free input of the step, a draw under no law"). Log entries 3 and 5. -/
opaque Config.freePorts : Nat → Ports

end Sys2Proof
end

