-- ==== Sys2Proof/Machine/State.lean ====
section
/-! DEFINITION. The state of the block, what can stop it, and its state after reset. -/

namespace Sys2Proof.Machine

/-- The control state: a 4-bit register (10_state.md R33, 30_encoding.md R63). `Phase.code` gives the codes.
The three codes never taken are here because the register can hold them before the first reset (R152). -/
inductive Phase where
  | idle
  | hsIdleHigh
  | hsStartLow
  | hsRelease
  | hsAwaitSensorHigh
  | hsAwaitAckLow
  | hsAwaitAckHigh
  | hsAwaitStartLow
  | hsAwaitStartHigh
  | frWaitLow
  | frWaitHigh
  | validate
  | waitCmd
  | unused13
  | unused14
  | unused15
deriving DecidableEq, Repr

/-- STATUS.RESULT, a 3-bit register (30_encoding.md R62). `Result.code` gives the codes; the last two are
never produced. -/
inductive Result where
  | none
  | ok
  | timeout
  | checksumMismatch
  | humidityOutOfRange
  | temperatureOutOfRange
  | unused6
  | unused7
deriving DecidableEq, Repr

/-- DATA: the Reading in tenths (10_state.md R27). -/
structure Reading where
  humRaw : BitVec 16
  tempRaw : BitVec 16
deriving DecidableEq, Repr

/-- ERRINFO: what a Timeout carries (10_state.md R29). -/
structure ErrInfo where
  expLevel : Level
  site : Phase
  bitidx : BitVec 6
  timeoutUs : BitVec 16
deriving DecidableEq, Repr

/-- The state of the block (10_state.md R38), then the model's own fields: the parameter and the inputs. -/
structure State where
  /-- CTRL.IE (R22). -/
  ie : Bool
  /-- STATUS.DONE (R24). -/
  done : Bool
  /-- STATUS.RESULT (R24). -/
  result : Result
  /-- The control state, STATUS.PHASE (R33). -/
  phase : Phase
  /-- The bare-restart mode, STATUS.BARE (R34). -/
  bare : Bool
  /-- Bits accumulated, STATUS.BITIDX (R37). -/
  bitidx : BitVec 6
  /-- FRAME_HI (R25). -/
  frameHi : Word
  /-- FRAME_LO.B5 (R26). -/
  frameLo : Byte
  /-- DATA (R27). -/
  data : Reading
  /-- ELAPSED (R28). -/
  elapsed : Word
  /-- ERRINFO (R29). -/
  errInfo : ErrInfo
  /-- WAIT_CFG.TIMEOUT_US (R30). -/
  waitCfg : BitVec 16
  /-- The hold counter (R35). -/
  hc : Word
  /-- The elapsed counter of the wait (R36). -/
  k : Word
  /-- The last three samples of the wait, the newest in bit 0 (R36). -/
  win : BitVec 3
  /-- The expected level of a WAIT_CMD wait (R36). -/
  wlevel : Level
  /-- The frame's shift register (R37). -/
  sr : BitVec 40
  /-- The class of the bit just measured (R37). -/
  bitval : Bool
  /-- First flip-flop of the synchronizer (R19). -/
  sync1 : Level
  /-- Second flip-flop of the synchronizer; its value before an edge is `Sample()` (R19). -/
  sync2 : Level
  /-- CYCLES_PER_US − 1, a parameter that no step changes (00_scope.md R5; log entry 2). -/
  cyclesPerUsPred : Fin 65535
  /-- The input ports during the current cycle (R17; log entry 3). -/
  pins : Ports
  /-- The input ports of the coming cycles, the next one first (log entry 3). -/
  script : List Ports
  /-- Edges passed: the index of the free draws once the script has run out (log entry 3). -/
  cycle : Nat
deriving DecidableEq, Repr

/-- What stops the machine. Nothing the block does is a fault (60_exceptions.md R132, R143): the two
here are the treatment of codes never taken that 93_implementation_defined.md item 11 asks for. -/
inductive Fault where
  /-- `phase` holds a code 13 to 15. Raised by every edge without `rst` in such a state; no state reached
  from reset is one. Safe: the model stops where the spec says nothing. -/
  | unusedPhaseCode
  /-- STATUS.RESULT holds code 6 or 7. Raised by every edge without `rst` in such a state; no state reached
  from reset is one. Safe: the model stops where the spec asks for a fault. -/
  | unusedResultCode
deriving DecidableEq, Repr

/-- Why the model has no meaning for a command. -/
inductive Refusal where
  /-- Raised by `exec` for a command without a meaning; no arm uses it. Safe: the model stops. -/
  | notModelled (mnemonic : String)
deriving DecidableEq, Repr

/-- ERRINFO = 0x00000000 (10_state.md R42, 44_control.md R118). -/
def ErrInfo.zero : ErrInfo :=
  { expLevel := .low, site := .idle, bitidx := 0, timeoutUs := 0 }

/-- DATA = 0x00000000 (10_state.md R42, 44_control.md R118). -/
def Reading.zero : Reading :=
  { humRaw := 0, tempRaw := 0 }

/-- A cycle in which the host does nothing and the line has the given level. -/
def quietPorts (level : Level) : Ports :=
  { rst := false, lineIn := level, busWe := false, busAddr := 0, busWdata := 0 }

/-- The state right after reset (10_state.md R42). The fields from `cyclesPerUsPred` on are the model's own:
the parameter unconstrained, the host quiet, no script (log entries 2 and 4). -/
def State.reset : State where
  ie := false
  done := false
  result := .none
  phase := .idle
  bare := false
  bitidx := 0
  frameHi := 0
  frameLo := 0
  data := Reading.zero
  elapsed := 0
  errInfo := ErrInfo.zero
  waitCfg := 0
  hc := 0
  k := 0
  win := 0
  wlevel := .low
  sr := 0
  bitval := false
  sync1 := .high
  sync2 := .high
  cyclesPerUsPred := Config.cyclesPerUsPred
  pins := quietPorts .high
  script := []
  cycle := 0

end Sys2Proof.Machine
end

