-- ==== Sys2Proof/Machine/Codes.lean ====
section
/-! DEFINITION. The code tables: line level, RESULT and phase codes, and the kind of each phase. -/

namespace Sys2Proof.Machine

/-- Low = 0, High = 1 (00_scope.md R10). -/
def levelBit (l : Level) : BitVec 1 :=
  match l with
  | .low => 0
  | .high => 1

/-- The RESULT codes (30_encoding.md R62). -/
def Result.code : Result → BitVec 3
  | .none => 0
  | .ok => 1
  | .timeout => 2
  | .checksumMismatch => 3
  | .humidityOutOfRange => 4
  | .temperatureOutOfRange => 5
  | .unused6 => 6
  | .unused7 => 7

/-- The phase codes (30_encoding.md R63). -/
def Phase.code : Phase → BitVec 4
  | .idle => 0
  | .hsIdleHigh => 1
  | .hsStartLow => 2
  | .hsRelease => 3
  | .hsAwaitSensorHigh => 4
  | .hsAwaitAckLow => 5
  | .hsAwaitAckHigh => 6
  | .hsAwaitStartLow => 7
  | .hsAwaitStartHigh => 8
  | .frWaitLow => 9
  | .frWaitHigh => 10
  | .validate => 11
  | .waitCmd => 12
  | .unused13 => 13
  | .unused14 => 14
  | .unused15 => 15

/-- RESULT codes 0 to 5; 6 and 7 are "never produced" (30_encoding.md R62). -/
def Result.produced (r : Result) : Bool :=
  r.code.toNat ≤ 5

/-- Phase codes 0 to 12; 13 to 15 are "never taken" (30_encoding.md R63). -/
def Phase.taken (p : Phase) : Bool :=
  p.code.toNat ≤ 12

/-- The wait phases, 4 to 10 and 12 (30_encoding.md R63, 40_transition_waiter.md R75). -/
def Phase.isWait (p : Phase) : Bool :=
  (4 ≤ p.code.toNat && p.code.toNat ≤ 10) || p.code.toNat == 12

/-- The drive phases, 1 to 3 (41_handshake.md R81). -/
def Phase.isDrive (p : Phase) : Bool :=
  1 ≤ p.code.toNat && p.code.toNat ≤ 3

/-- The FR phases, 9 and 10 (42_frame_reader.md R98, R99). -/
def Phase.isFrame (p : Phase) : Bool :=
  p.code.toNat == 9 || p.code.toNat == 10

/-- The phases of a READ or READ_BARE before its frame is complete, 1 to 10 (44_control.md R116). -/
def Phase.isReading (p : Phase) : Bool :=
  1 ≤ p.code.toNat && p.code.toNat ≤ 10

end Sys2Proof.Machine
end

