-- ==== Sys2Proof/Machine/Flags.lean ====
section
/-! DEFINITION. The status flags: BUSY, DONE, RESULT, the STATUS word and the interrupt. -/

namespace Sys2Proof.Machine

/-- `BUSY = (phase ≠ IDLE)` (10_state.md R32). -/
def State.busy (s : State) : Bool :=
  s.phase != .idle

/-- `irq = DONE ∧ IE`, a level (60_exceptions.md R141). -/
def State.irq (s : State) : Bool :=
  s.done && s.ie

/-- `Complete(code)` (44_control.md R120). -/
def complete (code : Result) (s : State) : State :=
  { s with result := code, done := true, phase := .idle }

/-- DONE after a host write of `v` to STATUS, when the control part of the same edge left it at `done` and
`setDone` says whether that part set it: write-1-to-clear, and the set wins (44_control.md R121). -/
def doneAfterStatusWrite (v : Word) (setDone done : Bool) : Bool :=
  if v.getLsbD 1 && !setDone then false else done

/-- The STATUS word (10_state.md R24, 20_memory.md R45). -/
def State.statusWord (s : State) : Word :=
  ((0 : BitVec 10) ++ s.bitidx ++ (0 : BitVec 3) ++ BitVec.ofBool s.bare ++ s.phase.code ++ (0 : BitVec 1)
    ++ s.result.code ++ (0 : BitVec 2) ++ BitVec.ofBool s.done ++ BitVec.ofBool s.busy).setWidth 32

end Sys2Proof.Machine
end

