-- ==== Sys2Proof/Machine/Timing.lean ====
section
/-! DEFINITION. The protocol constants in microseconds and their conversion to clock cycles. -/

namespace Sys2Proof.Machine

/-- Idle-High hold (00_scope.md R6). Log entry 16 for all the constants of this file. -/
def tIdleHighUs : BitVec 16 := 100

/-- Start-Low hold (00_scope.md R6). -/
def tStartLowUs : BitVec 16 := 1000

/-- Timeout of Await-Sensor-High, Await-Ack-Low and Await-Ack-High (00_scope.md R6). -/
def toHsUs : BitVec 16 := 100

/-- Timeout of Await-Start-Low and Await-Start-High (00_scope.md R6). -/
def toStartUs : BitVec 16 := 200

/-- Timeout of every FR wait (00_scope.md R6). -/
def toBitUs : BitVec 16 := 500

/-- The threshold of a 1 bit on the high-phase duration (00_scope.md R6). -/
def threshUs : BitVec 16 := 50

/-- Cycles of the Release-High phase (00_scope.md R8, 41_handshake.md R84). -/
def nRelease : Nat := 1

/-- CYCLES_PER_US, 1 to 65535 (00_scope.md R5). -/
def State.cyclesPerUs (s : State) : Nat :=
  s.cyclesPerUsPred.val + 1

/-- A number of microseconds as a number of cycles, by exact multiplication (00_scope.md R7). -/
def usToCycles (c : Nat) (us : BitVec 16) : Nat :=
  us.toNat * c

end Sys2Proof.Machine
end

