-- ==== Sys2Proof/Machine/Operands.lean ====
section
/-! DEFINITION. What the commands and the waits take as operands (30_encoding.md R57, 40_transition_waiter.md R66). -/

namespace Sys2Proof.Machine

/-- humidity-high (10_state.md R25). -/
def State.b1 (s : State) : Byte := s.frameHi.extractLsb' 24 8

/-- humidity-low (10_state.md R25). -/
def State.b2 (s : State) : Byte := s.frameHi.extractLsb' 16 8

/-- temperature-high (10_state.md R25). -/
def State.b3 (s : State) : Byte := s.frameHi.extractLsb' 8 8

/-- temperature-low (10_state.md R25). -/
def State.b4 (s : State) : Byte := s.frameHi.extractLsb' 0 8

/-- checksum (10_state.md R26). -/
def State.b5 (s : State) : Byte := s.frameLo

/-- `Sample()` at the coming edge: the value `sync2` holds before it (10_state.md R19). -/
def State.sample (s : State) : Level := s.sync2

/-- The parameters of a wait besides its site: the expected level and the timeout in µs
(40_transition_waiter.md R66). -/
structure Wait where
  level : Level
  timeoutUs : BitVec 16
deriving DecidableEq, Repr

/-- The wait of a phase, for the wait phases (30_encoding.md R63); WAIT_CMD takes its level from `wlevel` and its
timeout from WAIT_CFG (40_transition_waiter.md R77). -/
def State.wait (s : State) : Option Wait :=
  match s.phase with
  | .hsAwaitSensorHigh => some ⟨.high, toHsUs⟩
  | .hsAwaitAckLow => some ⟨.low, toHsUs⟩
  | .hsAwaitAckHigh => some ⟨.high, toHsUs⟩
  | .hsAwaitStartLow => some ⟨.low, toStartUs⟩
  | .hsAwaitStartHigh => some ⟨.high, toStartUs⟩
  | .frWaitLow => some ⟨.low, toBitUs⟩
  | .frWaitHigh => some ⟨.high, toBitUs⟩
  | .waitCmd => some ⟨s.wlevel, s.waitCfg⟩
  | .idle => none
  | .hsIdleHigh => none
  | .hsStartLow => none
  | .hsRelease => none
  | .validate => none
  | .unused13 => none
  | .unused14 => none
  | .unused15 => none

/-- The length in cycles of a drive phase (41_handshake.md R82–R84); 0 for every other phase. -/
def State.holdCycles (s : State) : Nat :=
  match s.phase with
  | .hsIdleHigh => usToCycles s.cyclesPerUs tIdleHighUs
  | .hsStartLow => usToCycles s.cyclesPerUs tStartLowUs
  | .hsRelease => nRelease
  | .idle => 0
  | .hsAwaitSensorHigh => 0
  | .hsAwaitAckLow => 0
  | .hsAwaitAckHigh => 0
  | .hsAwaitStartLow => 0
  | .hsAwaitStartHigh => 0
  | .frWaitLow => 0
  | .frWaitHigh => 0
  | .validate => 0
  | .waitCmd => 0
  | .unused13 => 0
  | .unused14 => 0
  | .unused15 => 0

end Sys2Proof.Machine
end

