-- ==== Sys2Proof/Machine/Ops.lean ====
section
/-! DEFINITION. The named operations the units share: entering phases, accepting, recording a failure, reset, and
what every edge does to the synchronizer and the inputs. -/

namespace Sys2Proof.Machine

/-- A drive phase begins (41_handshake.md R81). -/
def enterDrive (p : Phase) (s : State) : State :=
  { s with hc := 0, phase := p }

/-- A wait begins: no sample is taken at this edge (40_transition_waiter.md R67). -/
def startWait (p : Phase) (s : State) : State :=
  { s with k := 0, win := 0, phase := p }

/-- What accepting any command does (44_control.md R118). -/
def acceptCommon (s : State) : State :=
  { s with done := false, result := .none, errInfo := ErrInfo.zero }

/-- ERRINFO of a timeout: BITIDX only for the FR sites (60_exceptions.md R133). -/
def timeoutInfo (level : Level) (site : Phase) (bi : BitVec 6) (timeoutUs : BitVec 16) : ErrInfo :=
  { expLevel := level, site := site, bitidx := if site.isFrame then bi else 0, timeoutUs := timeoutUs }

/-- `raise Timeout(L, site, bi, T_US)`: the block's one exception entry (60_exceptions.md R133). There is no
vector, no saved program counter and no return from it (R139): control lies with the host. -/
def raiseTimeout (level : Level) (site : Phase) (bi : BitVec 6) (timeoutUs : BitVec 16) (s : State) : State :=
  complete .timeout { s with errInfo := timeoutInfo level site bi timeoutUs }

/-- The input ports of the next cycle: from the script, else a free draw (log entry 3). -/
def State.nextPorts (s : State) : Ports :=
  match s.script with
  | p :: _ => p
  | [] => Config.freePorts s.cycle

/-- The next cycle begins: its inputs appear at the ports (log entry 3). -/
def nextCycle (s : State) : State :=
  { s with pins := s.nextPorts, script := s.script.tail, cycle := s.cycle + 1 }

/-- Part (3) of an edge, `sync1 <- line_in; sync2 <- sync1` (44_control.md R117, 10_state.md R19), and the
beginning of the next cycle. -/
def latch (s : State) : State :=
  nextCycle { s with sync1 := s.pins.lineIn, sync2 := s.sync1 }

/-- Every piece of the block's state at its reset value (10_state.md R42); the parameter and the inputs are not
the block's state and stay. -/
def resetRegisters (s : State) : State :=
  { State.reset with cyclesPerUsPred := s.cyclesPerUsPred, pins := s.pins, script := s.script, cycle := s.cycle }

/-- An edge with `rst = 1`: nothing but the reset happens (70_reset_and_hazards.md R149). -/
def resetEdge (s : State) : State :=
  nextCycle (resetRegisters s)

/-- The fault of a state that holds a code never taken (93_implementation_defined.md item 11; log entry 7). -/
def State.codeFault (s : State) : Option Fault :=
  if !s.phase.taken then some .unusedPhaseCode
  else if !s.result.produced then some .unusedResultCode
  else none

/-- The outcome of an edge that leads from `s` to `t`. -/
def finish (s t : State) : Host.Outcome State Fault Refusal :=
  match s.codeFault with
  | some f => .fault f
  | none => .next t

end Sys2Proof.Machine
end

