-- ==== Sys2Proof/Machine/TransitionWaiter.lean ====
section
/-! DEFINITION. TW, the Transition Waiter: the debounced level wait (40_transition_waiter.md). -/

namespace Sys2Proof.Machine

/-- The outcome of one edge of a wait (40_transition_waiter.md R71). -/
inductive WaitOutcome where
  /-- CONTINUE, with the new `k` and `win`. -/
  | running (k : Word) (win : BitVec 3)
  /-- SUCCESS, with the elapsed count. -/
  | success (elapsed : Word)
  /-- TIMEOUT. -/
  | timeout
deriving DecidableEq, Repr

/-- `{win[1:0], x}`: the window after one more sample, the newest at bit 0 (40_transition_waiter.md R71). -/
def shiftWindow (win : BitVec 3) (x : Level) : BitVec 3 :=
  win.shiftConcat (x == .high)

/-- `{L, L, L}` (40_transition_waiter.md R69). -/
def fullWindow (l : Level) : BitVec 3 :=
  match l with
  | .low => 0b000
  | .high => 0b111

/-- `TWStep(L, T)` up to its outcome, at `c` cycles per µs, for the sample `x`: the timeout first, then the match
(40_transition_waiter.md R71, R72). The count is exact (00_scope.md R9; log entry 11). -/
def twOutcome (c : Nat) (w : Wait) (k : Word) (win : BitVec 3) (x : Level) : WaitOutcome :=
  if usToCycles c w.timeoutUs ≤ k.toNat + 1 then .timeout
  else if 3 ≤ k.toNat + 1 ∧ shiftWindow win x = fullWindow w.level then .success (BitVec.ofNat 32 (k.toNat + 1))
  else .running (BitVec.ofNat 32 (k.toNat + 1)) (shiftWindow win x)

/-- The state after the control part of an edge, and whether that part set DONE (44_control.md R117). -/
abbrev Controlled := State × Bool

/-- One edge of the wait `w` of the current phase, `onSuccess` being the phase's own rule
(40_transition_waiter.md R71). -/
def twStep (w : Wait) (onSuccess : Word → State → Controlled) (s : State) : Controlled :=
  match twOutcome s.cyclesPerUs w s.k s.win s.sample with
  | .running k' win' => ({ s with k := k', win := win' }, false)
  | .success e => onSuccess e { s with elapsed := e }
  | .timeout => (raiseTimeout w.level s.phase s.bitidx w.timeoutUs s, true)

/-- A success whose phase is followed by another wait, with no gap cycle (40_transition_waiter.md R76). -/
def thenWait (p : Phase) (_elapsed : Word) (s : State) : Controlled :=
  (startWait p s, false)

/-- `Next(WAIT_CMD)`: completion with RESULT = OK (40_transition_waiter.md R77). -/
def waitCmdDone (_elapsed : Word) (s : State) : Controlled :=
  (complete .ok s, true)

end Sys2Proof.Machine
end

