-- ==== Sys2Proof/Machine/FrameReader.lean ====
section
/-! DEFINITION. FR, the Bit Frame Reader (42_frame_reader.md). -/

namespace Sys2Proof.Machine

/-- A high phase of `e` cycles is a 1 if and only if it reaches the threshold (42_frame_reader.md R97). -/
def classify (c : Nat) (e : Word) : Bool :=
  decide (usToCycles c threshUs ≤ e.toNat)

/-- Success of FR_WAIT_LOW: the elapsed count is the high-phase duration (42_frame_reader.md R96, R98). -/
def bitLowDone (elapsed : Word) (s : State) : Controlled :=
  (startWait .frWaitHigh { s with bitval := classify s.cyclesPerUs elapsed }, false)

/-- `{sr[38:0], bitval}`: one bit shifted in at bit 0 (42_frame_reader.md R99). -/
def shiftIn (sr : BitVec 40) (b : Bool) : BitVec 40 :=
  sr.shiftConcat b

/-- Frame completion (42_frame_reader.md R101): FRAME holds the frame already in the VALIDATE cycle (log entry 19). -/
def frameComplete (sr : BitVec 40) (s : State) : State :=
  { s with frameHi := sr.extractLsb' 8 32, frameLo := sr.extractLsb' 0 8, phase := .validate }

/-- Success of FR_WAIT_HIGH: the bit is accumulated, then the next bit or the end of the frame
(42_frame_reader.md R99). -/
def bitHighDone (_elapsed : Word) (s : State) : Controlled :=
  let t := { s with sr := shiftIn s.sr s.bitval, bitidx := s.bitidx + 1 }
  if s.bitidx.toNat + 1 < 40 then (startWait .frWaitLow t, false)
  else (frameComplete t.sr t, false)

end Sys2Proof.Machine
end

