-- ==== Sys2Proof/Machine/Handshake.lean ====
section
/-! DEFINITION. HS, the Handshake Sequencer (41_handshake.md): the drive phases and the bare branch. -/

namespace Sys2Proof.Machine

/-- One edge of a drive phase (41_handshake.md R81), `exit` being `phase <- Next(P)` with what that entry does. -/
def holdStep (exit : State → State) (s : State) : State :=
  if s.hc.toNat + 1 = s.holdCycles then exit { s with hc := 0 }
  else { s with hc := s.hc + 1 }

/-- HS_IDLE_HIGH (41_handshake.md R82). -/
def idleHighStep (s : State) : State :=
  holdStep (enterDrive .hsStartLow) s

/-- HS_START_LOW (41_handshake.md R83). -/
def startLowStep (s : State) : State :=
  holdStep (enterDrive .hsRelease) s

/-- HS_RELEASE (41_handshake.md R84). -/
def releaseStep (s : State) : State :=
  holdStep (startWait .hsAwaitSensorHigh) s

/-- Success of HS_AWAIT_ACK_HIGH: the bare restart skips the start-bit wait (41_handshake.md R87). -/
def ackHighDone (_elapsed : Word) (s : State) : Controlled :=
  if s.bare then (startWait .frWaitLow s, false)
  else (startWait .hsAwaitStartLow s, false)

end Sys2Proof.Machine
end

