-- ==== Sys2Proof/Machine/Validator.lean ====
section
/-! DEFINITION. VAL, the Checksum & Range Validator (43_validator.md). -/

namespace Sys2Proof.Machine

/-- The outcome of `Validate` (43_validator.md R106). -/
inductive Verdict where
  | ok (h t : BitVec 16)
  | checksumMismatch
  | humidityOutOfRange
  | temperatureOutOfRange
deriving DecidableEq, Repr

/-- `(B1 + B2 + B3 + B4) mod 256` (43_validator.md R107). -/
def checksum (b1 b2 b3 b4 : Byte) : Nat :=
  (b1.toNat + b2.toNat + b3.toNat + b4.toNat) % 256

/-- `hi × 256 + lo` (43_validator.md R106). -/
def tenths (hi lo : Byte) : Nat :=
  hi.toNat * 256 + lo.toNat

/-- `Validate`: the checksum, then humidity, then temperature (43_validator.md R106, R111). Comparisons are exact
on integers; the lower bounds never fail (R109, R110; log entry 17). -/
def validate (b1 b2 b3 b4 b5 : Byte) : Verdict :=
  let h := tenths b1 b2
  let t := tenths b3 b4
  if checksum b1 b2 b3 b4 ≠ b5.toNat then .checksumMismatch
  else if (h : Int) < 0 ∨ (h : Int) > 1000 then .humidityOutOfRange
  else if (t : Int) < -400 ∨ (t : Int) > 800 then .temperatureOutOfRange
  else .ok (BitVec.ofNat 16 h) (BitVec.ofNat 16 t)

/-- What a verdict makes of the state at the edge that leaves VALIDATE (43_validator.md R113). -/
def recordVerdict (v : Verdict) (s : State) : State :=
  match v with
  | .ok h t => complete .ok { s with data := { humRaw := h, tempRaw := t } }
  | .checksumMismatch => complete .checksumMismatch s
  | .humidityOutOfRange => complete .humidityOutOfRange s
  | .temperatureOutOfRange => complete .temperatureOutOfRange s

/-- The verdict on the frame registers as they stand. -/
def State.verdict (s : State) : Verdict :=
  validate s.b1 s.b2 s.b3 s.b4 s.b5

/-- The edge that leaves VALIDATE (43_validator.md R113). -/
def validateStep (s : State) : Controlled :=
  (recordVerdict s.verdict s, true)

end Sys2Proof.Machine
end

