-- ==== Sys2Proof/Machine/Control.lean ====
section
/-! DEFINITION. CTL's part of an edge, and the pins it drives. -/

namespace Sys2Proof.Machine

/-- One edge of the wait the phase is in, if it is a wait. -/
def waitStep (onSuccess : Word → State → Controlled) (s : State) : Controlled :=
  match s.wait with
  | some w => twStep w onSuccess s
  | none => (s, false)

/-- Part (1) of an edge: exactly one arm, chosen by `phase` before the edge (44_control.md R117). The arms of the
codes never taken are not reached: such a state faults (`finish`). -/
def controlStep (s : State) : Controlled :=
  match s.phase with
  | .idle => (s, false)
  | .hsIdleHigh => (idleHighStep s, false)
  | .hsStartLow => (startLowStep s, false)
  | .hsRelease => (releaseStep s, false)
  | .hsAwaitSensorHigh => waitStep (thenWait .hsAwaitAckLow) s
  | .hsAwaitAckLow => waitStep (thenWait .hsAwaitAckHigh) s
  | .hsAwaitAckHigh => waitStep ackHighDone s
  | .hsAwaitStartLow => waitStep (thenWait .hsAwaitStartHigh) s
  | .hsAwaitStartHigh => waitStep (thenWait .frWaitLow) s
  | .frWaitLow => waitStep bitLowDone s
  | .frWaitHigh => waitStep bitHighDone s
  | .validate => validateStep s
  | .waitCmd => waitStep waitCmdDone s
  | .unused13 => (s, false)
  | .unused14 => (s, false)
  | .unused15 => (s, false)

/-- `line_oe`: input mode in every wait, output mode otherwise (10_state.md R20). Codes never taken are given
output mode; no edge leaves such a state but a reset (log entry 7). -/
def State.lineOe (s : State) : Bool :=
  !s.phase.isWait

/-- `line_out`: Low only in HS_START_LOW (10_state.md R20). -/
def State.lineOut (s : State) : Level :=
  if s.phase = .hsStartLow then .low else .high

end Sys2Proof.Machine
end

