-- ==== Sys2Proof/Machine/Bus.lean ====
section
/-! DEFINITION. The host register space: reads, and part (2) of an edge, the host write (20_memory.md). -/

namespace Sys2Proof.Machine

/-- The word index of a byte address; the low two bits are ignored (20_memory.md R44). -/
def wordIndex (addr : BitVec 6) : BitVec 4 :=
  addr.extractLsb' 2 4

/-- The ERRINFO word (30_encoding.md R64). -/
def ErrInfo.word (e : ErrInfo) : Word :=
  (e.timeoutUs ++ (0 : BitVec 2) ++ e.bitidx ++ e.site.code ++ (0 : BitVec 3) ++ levelBit e.expLevel).setWidth 32

/-- The DATA word (10_state.md R27). -/
def Reading.word (r : Reading) : Word :=
  (r.tempRaw ++ r.humRaw).setWidth 32

/-- `RegValue(idx)` (20_memory.md R45). Reserved bits and unmapped words read 0 (log entry 9). -/
def State.regValue (s : State) (idx : BitVec 4) : Word :=
  match idx.toNat with
  | 0 => (BitVec.ofBool s.ie).setWidth 32
  | 1 => 0
  | 2 => s.statusWord
  | 3 => s.frameHi
  | 4 => s.frameLo.setWidth 32
  | 5 => s.data.word
  | 6 => s.elapsed
  | 7 => s.errInfo.word
  | 8 => s.waitCfg.setWidth 32
  | _ => 0

/-- `MemRead(addr, 4)`: combinational, no side effect (20_memory.md R45). -/
def State.memRead (s : State) (addr : BitVec 6) : Word :=
  s.regValue (wordIndex addr)

/-- `bus_rdata` in the current cycle (20_memory.md R45). -/
def State.busRdata (s : State) : Word :=
  s.memRead s.pins.busAddr

/-- The word a host writes to CMD in this cycle, if it does (44_control.md R118). -/
def State.commandWord (s : State) : Option Word :=
  if s.pins.busWe && wordIndex s.pins.busAddr == 1 then some s.pins.busWdata else none

/-- Part (2) of an edge for every register but CMD: `s` is the state before the edge, `c` what its control part
left, `setDone` whether that part set DONE (44_control.md R117, 20_memory.md R46). -/
def hostWrite (s : State) (setDone : Bool) (c : State) : State :=
  if s.pins.busWe then
    match (wordIndex s.pins.busAddr).toNat with
    | 0 => { c with ie := s.pins.busWdata.getLsbD 0 }
    | 2 => { c with done := doneAfterStatusWrite s.pins.busWdata setDone c.done }
    | 3 => if s.phase = .idle then { c with frameHi := s.pins.busWdata } else c
    | 4 => if s.phase = .idle then { c with frameLo := s.pins.busWdata.extractLsb' 0 8 } else c
    | 8 => if s.phase = .idle then { c with waitCfg := s.pins.busWdata.extractLsb' 0 16 } else c
    | _ => c
  else c

/-- The state after an edge without `rst` and without a CMD write. -/
def busEdgeState (s : State) : State :=
  latch (hostWrite s (controlStep s).2 (controlStep s).1)

/-- An edge without `rst` and without a CMD write (44_control.md R117). -/
def busEdge (s : State) : Host.Outcome State Fault Refusal :=
  finish s (busEdgeState s)

/-- The state after an edge at which the host writes a command to CMD: `accept` applies only when the block was
idle before the edge (44_control.md R118, R119). -/
def commandEdgeState (accept : State → State) (s : State) : State :=
  if s.phase = .idle then latch (accept s) else latch (controlStep s).1

/-- An edge at which the host writes a command to CMD. -/
def commandEdge (accept : State → State) (s : State) : Host.Outcome State Fault Refusal :=
  finish s (commandEdgeState accept s)

end Sys2Proof.Machine
end

