-- ==== Sys2Proof/Machine/AttemptCommands.lean ====
section
/-! DEFINITION. NOP, READ, READ_BARE and the reserved opcodes (44_control.md R123–R126). Each meaning is the clock
edge at which the host writes the command to CMD (log entry 1). -/

namespace Sys2Proof.Machine

/-- `Accept` of READ and READ_BARE (44_control.md R118). -/
def acceptAttempt (bare : Bool) (s : State) : State :=
  enterDrive .hsIdleHigh
    { acceptCommon s with
      frameHi := 0, frameLo := 0, data := Reading.zero, sr := 0, bitval := false, bitidx := 0, bare := bare }

/-- NOP changes no state (44_control.md R123). -/
def execNop (s : State) : Host.Outcome State Fault Refusal :=
  commandEdge (fun t => t) s

/-- READ starts an attempt with the start-bit wait (44_control.md R124). -/
def execRead (s : State) : Host.Outcome State Fault Refusal :=
  commandEdge (acceptAttempt false) s

/-- READ_BARE starts an attempt in bare-restart mode (44_control.md R125). -/
def execReadBare (s : State) : Host.Outcome State Fault Refusal :=
  commandEdge (acceptAttempt true) s

/-- Reserved OP 6 changes no state (44_control.md R126; log entry 8). -/
def execReserved6 (s : State) : Host.Outcome State Fault Refusal :=
  commandEdge (fun t => t) s

/-- Reserved OP 7 changes no state (44_control.md R126; log entry 8). -/
def execReserved7 (s : State) : Host.Outcome State Fault Refusal :=
  commandEdge (fun t => t) s

end Sys2Proof.Machine
end

