-- ==== Sys2Proof/Machine/ValidateCommand.lean ====
section
/-! DEFINITION. VALIDATE (43_validator.md R114): the clock edge at which the host writes it to CMD. -/

namespace Sys2Proof.Machine

/-- `Accept` of VALIDATE (44_control.md R118). -/
def acceptValidate (s : State) : State :=
  { acceptCommon s with data := Reading.zero, phase := .validate }

/-- VALIDATE starts VAL on the frame registers (43_validator.md R114). -/
def execValidate (s : State) : Host.Outcome State Fault Refusal :=
  commandEdge acceptValidate s

end Sys2Proof.Machine
end

