-- ==== Sys2Proof/Machine/WaitCommands.lean ====
section
/-! DEFINITION. WAIT_LOW and WAIT_HIGH (40_transition_waiter.md R78, R79): the clock edge at which the host writes
them to CMD. -/

namespace Sys2Proof.Machine

/-- `Accept` of WAIT_LOW and WAIT_HIGH (44_control.md R118). -/
def acceptWait (level : Level) (s : State) : State :=
  startWait .waitCmd { acceptCommon s with wlevel := level }

/-- WAIT_LOW starts a wait for Low (40_transition_waiter.md R78). -/
def execWaitLow (s : State) : Host.Outcome State Fault Refusal :=
  commandEdge (acceptWait .low) s

/-- WAIT_HIGH starts a wait for High (40_transition_waiter.md R79). -/
def execWaitHigh (s : State) : Host.Outcome State Fault Refusal :=
  commandEdge (acceptWait .high) s

end Sys2Proof.Machine
end

