-- ==== Sys2Proof/Machine/Dispatch.lean ====
section
/-! DEFINITION. The meaning of each command: `exec i s` is the clock edge, without `rst`, that closes a cycle in
which the host writes command `i` to CMD (log entry 1). -/

namespace Sys2Proof.Machine

def exec (i : Instr) (s : State) : Host.Outcome State Fault Refusal :=
  match i with
  | .nop => Sys2Proof.Machine.execNop s
  | .read => Sys2Proof.Machine.execRead s
  | .readBare => Sys2Proof.Machine.execReadBare s
  | .validate => Sys2Proof.Machine.execValidate s
  | .waitLow => Sys2Proof.Machine.execWaitLow s
  | .waitHigh => Sys2Proof.Machine.execWaitHigh s
  | .reserved6 => Sys2Proof.Machine.execReserved6 s
  | .reserved7 => Sys2Proof.Machine.execReserved7 s

end Sys2Proof.Machine
end

