-- ==== Sys2Proof/Machine/Step.lean ====
section
/-! DEFINITION. One clock edge (44_control.md R117). -/

namespace Sys2Proof.Machine

/-- One rising edge of `clk`: `rst` over everything; a command written to CMD; any other edge
(44_control.md R117, 70_reset_and_hazards.md R149). -/
def step (s : State) : Host.Outcome State Fault Refusal :=
  if s.pins.rst then .next (resetEdge s)
  else
    match s.commandWord with
    | some v => exec (decodeWord v) s
    | none => busEdge s

/-- `s` with the host writing the table word `w` to CMD in the current cycle, `rst` low: the very next edge runs
that command (log entry 14). The line level of the cycle stays. -/
def State.withFetchWord (s : State) (nbits w : Nat) : State :=
  { s with
    pins := { s.pins with rst := false, busWe := true, busAddr := 4, busWdata := tableWord nbits w } }

end Sys2Proof.Machine
end

