-- ==== Sys2Proof/Safety.lean ====
section
/-! DEFINITION. The terms in which claims are made: runs, the inputs ahead, the invariant, the transition table, the
bound on a command's length. -/

namespace Sys2Proof.Machine

/-- `n` edges, stopping at the first fault or refusal. -/
def runSteps : Nat → State → Host.Outcome State Fault Refusal
  | 0, s => .next s
  | n + 1, s =>
    match step s with
    | .next t => runSteps n t
    | .fault f => .fault f
    | .refused r => .refused r

/-- The input ports `j` cycles ahead: this cycle's, then the script's, then the free draws. -/
def State.portsAt (s : State) : Nat → Ports
  | 0 => s.pins
  | j + 1 => (s.script[j]?).getD (Config.freePorts (s.cycle + j))

/-- `rst` is low at the next `n` edges. -/
def State.NoReset (s : State) (n : Nat) : Prop :=
  ∀ j, j < n → (s.portsAt j).rst = false

/-- The sample of the edge `j` edges ahead, as long as no reset comes before it (10_state.md R19). -/
def State.sampleAt (s : State) : Nat → Level
  | 0 => s.sync2
  | 1 => s.sync1
  | j + 2 => (s.portsAt j).lineIn

/-- The last three of the next `n` samples are all `l`. -/
def State.MatchAt (s : State) (l : Level) (n : Nat) : Prop :=
  3 ≤ n ∧ s.sampleAt (n - 3) = l ∧ s.sampleAt (n - 2) = l ∧ s.sampleAt (n - 1) = l

/-- No code that is never taken or produced (93_implementation_defined.md item 11). -/
abbrev State.Legal (s : State) : Prop :=
  s.phase.taken = true ∧ s.result.produced = true

/-- The same state with no host write, and `rst` low, in this cycle. -/
def State.withoutWrite (s : State) : State :=
  { s with pins := { s.pins with rst := false, busWe := false } }

/-- What every edge without `rst` does to the synchronizer, the inputs and the parameter. -/
structure State.InputsAdvance (s t : State) : Prop where
  sync1 : t.sync1 = s.pins.lineIn
  sync2 : t.sync2 = s.sync1
  pins : t.pins = s.portsAt 1
  script : t.script = s.script.tail
  cycle : t.cycle = s.cycle + 1
  rate : t.cyclesPerUsPred = s.cyclesPerUsPred

/-- A host write to the word `idx` in this cycle. -/
def State.Writes (s : State) (idx : BitVec 4) : Prop :=
  s.pins.busWe = true ∧ wordIndex s.pins.busAddr = idx

/-- CTRL.IE after an edge without `rst`: the host's write, else as it was (10_state.md R22). -/
def State.ieAfter (s : State) : Bool :=
  if s.pins.busWe && wordIndex s.pins.busAddr == 0 then s.pins.busWdata.getLsbD 0 else s.ie

/-- DONE after an edge without `rst` that completes nothing and accepts nothing: write-1-to-clear, else as it was
(44_control.md R121). -/
def State.doneAfter (s : State) : Bool :=
  if s.pins.busWe && wordIndex s.pins.busAddr == 2 && s.pins.busWdata.getLsbD 1 then false else s.done

/-- The outcome of the coming edge of the wait `w` (40_transition_waiter.md R71). -/
def State.waitOutcome (s : State) (w : Wait) : WaitOutcome :=
  twOutcome s.cyclesPerUs w s.k s.win s.sample

/-- The registers a host can read, the frame's bits and the mode are the same in both states. -/
structure State.SameBlock (s t : State) : Prop where
  registers : ∀ idx, t.regValue idx = s.regValue idx
  phase : t.phase = s.phase
  bare : t.bare = s.bare
  hc : t.hc = s.hc
  k : t.k = s.k
  win : t.win = s.win
  wlevel : t.wlevel = s.wlevel
  sr : t.sr = s.sr
  bitval : t.bitval = s.bitval
  bitidx : t.bitidx = s.bitidx

/-! ### The invariant -/

/-- What every reachable state of the block satisfies; each field names the rule it follows from. -/
structure State.Inv (s : State) : Prop where
  /-- 30_encoding.md R62, R63. -/
  legal : s.Legal
  /-- 70_reset_and_hazards.md R155. -/
  busyHasNoResult : s.phase ≠ .idle → s.done = false ∧ s.result = .none
  /-- 44_control.md R120. -/
  doneHasResult : s.done = true → s.result ≠ .none
  /-- 60_exceptions.md R134. -/
  errInfoOnlyOfTimeout : s.result ≠ .timeout → s.errInfo = ErrInfo.zero
  /-- 10_state.md R29. -/
  errInfoSite : s.result = .timeout → s.errInfo.site.isWait = true
  /-- 43_validator.md R108. -/
  dataInRange : s.data.humRaw.toNat ≤ 1000 ∧ s.data.tempRaw.toNat ≤ 800
  /-- 60_exceptions.md R134. -/
  noDataAfterRejection :
    s.result = .checksumMismatch ∨ s.result = .humidityOutOfRange ∨ s.result = .temperatureOutOfRange →
      s.data = Reading.zero
  /-- 41_handshake.md R81. -/
  holdBelowLength : s.phase.isDrive = true → s.hc.toNat < s.holdCycles
  /-- 40_transition_waiter.md R72. -/
  waitBelowTimeout : ∀ w, s.wait = some w → s.k = 0 ∨ s.k.toNat < usToCycles s.cyclesPerUs w.timeoutUs
  /-- 40_transition_waiter.md R67: no sample from before the wait. -/
  windowOfThisWait : s.phase.isWait = true → s.k.toNat ≤ 2 → s.win.toNat < 2 ^ s.k.toNat
  /-- 70_reset_and_hazards.md R155. -/
  readingHasNoFrame :
    s.phase.isReading = true → s.frameHi = 0 ∧ s.frameLo = 0 ∧ s.data = Reading.zero
  /-- 43_validator.md R113. -/
  validatingHasNoData : s.phase = .validate → s.data = Reading.zero
  /-- 10_state.md R37. -/
  bitsCounted : s.bitidx.toNat ≤ 40 ∧ s.sr.toNat < 2 ^ s.bitidx.toNat
  /-- 42_frame_reader.md R99. -/
  frameNotFull : s.phase.isFrame = true → s.bitidx.toNat < 40
  /-- 44_control.md R118. -/
  handshakeHasNoBits : s.phase.isReading = true → s.phase.isFrame = false → s.bitidx = 0
  /-- 41_handshake.md R88, R89. -/
  bareSkipsStartBit : s.bare = true → s.phase ≠ .hsAwaitStartLow ∧ s.phase ≠ .hsAwaitStartHigh
  /-- 40_transition_waiter.md R72. -/
  elapsedOfSuccess : s.elapsed = 0 ∨ 3 ≤ s.elapsed.toNat

/-! ### The transition table -/

/-- The command accepted at the coming edge, if any (44_control.md R118). -/
def State.accepts (s : State) : Option Instr :=
  if s.pins.rst = false ∧ s.phase = .idle then
    match s.commandWord with
    | some v => if 1 ≤ (decodeWord v).opcode.toNat ∧ (decodeWord v).opcode.toNat ≤ 5 then some (decodeWord v) else none
    | none => none
  else none

/-- The phase a wait's success leads to (44_control.md R122); the phase itself where there is none. -/
def State.successPhase (s : State) : Phase :=
  match s.phase with
  | .hsAwaitSensorHigh => .hsAwaitAckLow
  | .hsAwaitAckLow => .hsAwaitAckHigh
  | .hsAwaitAckHigh => if s.bare then .frWaitLow else .hsAwaitStartLow
  | .hsAwaitStartLow => .hsAwaitStartHigh
  | .hsAwaitStartHigh => .frWaitLow
  | .frWaitLow => .frWaitHigh
  | .frWaitHigh => if s.bitidx.toNat + 1 < 40 then .frWaitLow else .validate
  | .waitCmd => .idle
  | other => other

/-- The phase a drive phase leads to (44_control.md R122); the phase itself where there is none. -/
def State.driveNext (s : State) : Phase :=
  match s.phase with
  | .hsIdleHigh => .hsStartLow
  | .hsStartLow => .hsRelease
  | .hsRelease => .hsAwaitSensorHigh
  | other => other

/-- The transition table as a function: the phase after the coming edge (44_control.md R122). -/
def State.tablePhase (s : State) : Phase :=
  if s.pins.rst then .idle
  else if s.phase = .idle then
    match s.accepts with
    | some .read => .hsIdleHigh
    | some .readBare => .hsIdleHigh
    | some .validate => .validate
    | some .waitLow => .waitCmd
    | some .waitHigh => .waitCmd
    | _ => .idle
  else if s.phase.isDrive then
    if s.hc.toNat + 1 = s.holdCycles then s.driveNext else s.phase
  else if s.phase = .validate then .idle
  else
    match s.wait with
    | some w =>
      match s.waitOutcome w with
      | .running _ _ => s.phase
      | .success _ => s.successPhase
      | .timeout => .idle
    | none => s.phase

/-! ### How long a command can last -/

/-- The most edges a wait of `us` microseconds can take and succeed (40_transition_waiter.md R72). -/
def State.longestWait (s : State) (us : BitVec 16) : Nat :=
  usToCycles s.cyclesPerUs us - 1

/-- The most edges from the start of bit `b`'s Low wait to the end of VALIDATE. -/
def State.frameEdges (s : State) (b : Nat) : Nat :=
  2 * (40 - b) * s.longestWait toBitUs + 1

/-- A bound on the edges from here to the completion of the running command (44_control.md R127). -/
def State.edgesLeft (s : State) : Nat :=
  let k := s.k.toNat
  let hs := s.longestWait toHsUs
  let start := s.longestWait toStartUs
  let bit := s.longestWait toBitUs
  let frame := s.frameEdges 0
  match s.phase with
  | .idle => 0
  | .hsIdleHigh => (s.holdCycles - s.hc.toNat) + usToCycles s.cyclesPerUs tStartLowUs + nRelease + 3 * hs + 2 * start + frame
  | .hsStartLow => (s.holdCycles - s.hc.toNat) + nRelease + 3 * hs + 2 * start + frame
  | .hsRelease => (s.holdCycles - s.hc.toNat) + 3 * hs + 2 * start + frame
  | .hsAwaitSensorHigh => (hs - k) + 2 * hs + 2 * start + frame
  | .hsAwaitAckLow => (hs - k) + hs + 2 * start + frame
  | .hsAwaitAckHigh => (hs - k) + 2 * start + frame
  | .hsAwaitStartLow => (start - k) + start + frame
  | .hsAwaitStartHigh => (start - k) + frame
  | .frWaitLow => (bit - k) + bit + s.frameEdges (s.bitidx.toNat + 1)
  | .frWaitHigh => (bit - k) + s.frameEdges (s.bitidx.toNat + 1)
  | .validate => 1
  | .waitCmd => max (usToCycles s.cyclesPerUs s.waitCfg) 1 - k
  | .unused13 => 0
  | .unused14 => 0
  | .unused15 => 0

/-- The longest READ, from accept to completion (44_control.md R124). -/
def longestRead (c : Nat) : Nat :=
  100 * c + 1000 * c + 1 + 3 * (100 * c - 1) + 2 * (200 * c - 1) + 80 * (500 * c - 1) + 1

/-! ### Attempts that cannot be told apart -/

/-- The parameter agrees, and over the next `n` edges so do the resets and the samples that `s` takes in its wait
phases (44_control.md R128). Samples that the block ignores and all that comes after the `n` edges may differ. -/
structure State.SameSamples (s t : State) (n : Nat) : Prop where
  rate : t.cyclesPerUsPred = s.cyclesPerUsPred
  rst : ∀ j, j < n → (t.portsAt j).rst = (s.portsAt j).rst
  sample : ∀ j u v, j < n → runSteps j s = .next u → runSteps j t = .next v → u.phase.isWait = true →
    v.sample = u.sample

/-- Two states agree on what a command reports (44_control.md R120). -/
structure State.SameOutcome (s t : State) : Prop where
  phase : t.phase = s.phase
  done : t.done = s.done
  result : t.result = s.result
  errInfo : t.errInfo = s.errInfo
  frameHi : t.frameHi = s.frameHi
  frameLo : t.frameLo = s.frameLo
  data : t.data = s.data

/-- Two states agree on everything an attempt reads and reports (44_control.md R128). CTRL, WAIT_CFG, ELAPSED, `wlevel`,
the synchronizer, the inputs and counters outside their phases may differ. -/
structure State.SameAttempt (s t : State) : Prop where
  outcome : s.SameOutcome t
  bare : t.bare = s.bare
  bitidx : t.bitidx = s.bitidx
  sr : t.sr = s.sr
  bitval : t.bitval = s.bitval
  hc : s.phase.isDrive = true → t.hc = s.hc
  k : s.phase.isWait = true → t.k = s.k
  win : s.phase.isWait = true → t.win = s.win

end Sys2Proof.Machine
end

