-- ==== Sys2Proof/Certificates/Slice0/Obligations.lean ====
section
/-! DEFINITION. The statements for the provers, from the numbered rules of spec/. Each docstring says what is stated and
cites the rules; OBLIGATIONS.json lists them. -/

open Sys2Proof Sys2Proof.Machine

/-- Decoding an encoded command gives it back, whatever the ignored bits hold. Rests on R56, R58, R60. -/
def Obligations.EncodedCommandsDecodeToThemselves : Prop :=
  ∀ (i : Instr) (ignored : BitVec 29), i.wellFormed = true →
    decodeWord (encodeWith ignored i) = i ∧ decodeBytes (bytesOfWord (encodeWith ignored i)) = .ok i

/-- The command decoder is total and reads only OP; nothing but 32 bits is a command. Formalises R60. -/
def Obligations.EveryWordNamesExactlyOneCommand : Prop :=
  (∀ (v : Word) (i : Instr), decodeWord v = i ↔ v.extractLsb' 0 3 = i.opcode) ∧
  (∀ i j : Instr, i.opcode = j.opcode → i = j) ∧
  (∀ bytes : List Byte, (∃ i, decodeBytes bytes = .ok i) ↔ bytes.length = 4)

/-- The words of the opcode map decode to the commands it names. Rests on R58, R61, R126. -/
def Obligations.OpcodeMapWordsDecode : Prop :=
  decodeWord 0x0 = .nop ∧ decodeWord 0x1 = .read ∧ decodeWord 0x2 = .readBare ∧ decodeWord 0x3 = .validate ∧
  decodeWord 0x4 = .waitLow ∧ decodeWord 0x5 = .waitHigh ∧ decodeWord 0x6 = .reserved6 ∧ decodeWord 0x7 = .reserved7 ∧
  decodeWord 0x9 = .read ∧ decodeWord 0xFFFFFFFF = .reserved7

/-- An edge at which the host writes CMD is exec of the command the word decodes to (exec as the whole edge: the
model's reading, log entry 1). Rests on R117, R118, R56. -/
def Obligations.StepRunsTheWrittenCommand : Prop :=
  ∀ s : State, s.pins.rst = false → s.pins.busWe = true → wordIndex s.pins.busAddr = 1 →
    step s = exec (decodeWord s.pins.busWdata) s

/-- An edge with rst = 1 puts every piece of state at its reset value, whatever the state and the inputs. Formalises
R42. -/
def Obligations.ResetEdgeSetsEveryRegister : Prop :=
  ∀ s : State, s.pins.rst = true →
    ∃ t, step s = .next t ∧
      t.ie = false ∧ t.done = false ∧ t.result = .none ∧ t.phase = .idle ∧ t.busy = false ∧ t.bare = false ∧
      t.bitidx = 0 ∧ t.frameHi = 0 ∧ t.frameLo = 0 ∧ t.data.word = 0 ∧ t.elapsed = 0 ∧ t.errInfo.word = 0 ∧
      t.waitCfg = 0 ∧ t.hc = 0 ∧ t.k = 0 ∧ t.win = 0 ∧ t.wlevel = .low ∧ t.bitval = false ∧ t.sr = 0 ∧
      t.sync1 = .high ∧ t.sync2 = .high ∧ t.lineOe = true ∧ t.lineOut = .high ∧ t.irq = false

/-- The reset state holds the values of the reset table and its pins are the idle state. Rests on R42, R45, R20,
R141. -/
def Obligations.ResetStateHoldsTheTableValues : Prop :=
  State.reset.phase = .idle ∧ State.reset.hc = 0 ∧ State.reset.k = 0 ∧ State.reset.win = 0 ∧
  State.reset.wlevel = .low ∧ State.reset.bitval = false ∧ State.reset.sr = 0 ∧
  State.reset.sync1 = .high ∧ State.reset.sync2 = .high ∧
  (∀ idx, State.reset.regValue idx = 0) ∧
  State.reset.lineOe = true ∧ State.reset.lineOut = .high ∧ State.reset.irq = false

/-- An edge stops only in a state holding a code never taken, and never refuses (the faults' names and order: the
model's choice, log entry 7). Rests on R62, R63, R132, R143, 93_implementation_defined.md item 11. -/
def Obligations.StepFaultsExactlyOnUnusedCodes : Prop :=
  ∀ s : State,
    (s.pins.rst = true → ∃ t, step s = .next t) ∧
    (s.pins.rst = false →
      (step s = .fault .unusedPhaseCode ↔ s.phase.taken = false) ∧
      (step s = .fault .unusedResultCode ↔ s.phase.taken = true ∧ s.result.produced = false) ∧
      ((∃ t, step s = .next t) ↔ s.Legal)) ∧
    (∀ r, step s ≠ .refused r)

/-- Every edge moves the synchronizer and the inputs one cycle and never changes CYCLES_PER_US (inputs and parameter
in State: log entries 2 and 3). Rests on R117, R19, R5, R11. -/
def Obligations.InputsMoveAndParameterStays : Prop :=
  (∀ s t : State, s.pins.rst = false → step s = .next t → s.InputsAdvance t) ∧
  (∀ s t : State, step s = .next t →
    t.cyclesPerUs = s.cyclesPerUs ∧ t.pins = s.portsAt 1 ∧ t.script = s.script.tail ∧ t.cycle = s.cycle + 1) ∧
  (∀ s : State, 1 ≤ s.cyclesPerUs ∧ s.cyclesPerUs ≤ 65535)

/-- The sample used at an edge is the line level of three cycles before. Rests on R19, R162. -/
def Obligations.SampleIsTheLineThreeCyclesEarlier : Prop :=
  ∀ s t : State, s.NoReset 2 → runSteps 2 s = .next t → t.sample = s.pins.lineIn

/-- Each word of the register space reads as the fields the register map gives it. Rests on R44, R45, R24, R29, R31,
R23. -/
def Obligations.RegisterReadsShowTheirFields : Prop :=
  ∀ s : State,
    s.busRdata = s.regValue (s.pins.busAddr.extractLsb' 2 4) ∧
    (s.regValue 0).toNat = s.ie.toNat ∧ s.regValue 1 = 0 ∧
    (s.regValue 2).toNat = s.busy.toNat + 2 * s.done.toNat + 16 * s.result.code.toNat + 256 * s.phase.code.toNat +
      4096 * s.bare.toNat + 65536 * s.bitidx.toNat ∧
    s.regValue 3 = s.frameHi ∧ (s.regValue 4).toNat = s.frameLo.toNat ∧
    (s.regValue 5).toNat = 65536 * s.data.tempRaw.toNat + s.data.humRaw.toNat ∧ s.regValue 6 = s.elapsed ∧
    (s.regValue 7).toNat = 65536 * s.errInfo.timeoutUs.toNat + 256 * s.errInfo.bitidx.toNat +
      16 * s.errInfo.site.code.toNat + (levelBit s.errInfo.expLevel).toNat ∧
    (s.regValue 8).toNat = s.waitCfg.toNat ∧ (∀ idx : BitVec 4, 9 ≤ idx.toNat → s.regValue idx = 0)

/-- In a cycle without a write, the bus address and data change nothing. Rests on R45, R49, R52. -/
def Obligations.ReadsHaveNoSideEffect : Prop :=
  ∀ (s : State) (addr : BitVec 6) (v : Word), s.pins.busWe = false →
    step { s with pins := { s.pins with busAddr := addr, busWdata := v } } = step s

/-- The low two bits of the bus address change neither the read value nor the edge. Rests on R44, R48. -/
def Obligations.LowAddressBitsAreIgnored : Prop :=
  ∀ (s : State) (low : BitVec 2),
    let s' := { s with pins := { s.pins with busAddr := (wordIndex s.pins.busAddr ++ low).setWidth 6 } }
    step s' = step s ∧ s'.busRdata = s.busRdata

/-- In IDLE a bus write changes exactly the register it addresses. Rests on R46, R117, R22, R25, R26, R30, R121. -/
def Obligations.IdleBusWritesTakeEffect : Prop :=
  ∀ s : State, s.Legal → s.phase = .idle → s.pins.rst = false → s.pins.busWe = true →
    wordIndex s.pins.busAddr ≠ 1 →
    let idx := wordIndex s.pins.busAddr
    let v := s.pins.busWdata
    ∃ t, step s = .next t ∧ s.InputsAdvance t ∧
      t.ie = (if idx = 0 then v.getLsbD 0 else s.ie) ∧
      t.done = (if idx = 2 ∧ v.getLsbD 1 = true then false else s.done) ∧
      t.frameHi = (if idx = 3 then v else s.frameHi) ∧
      t.frameLo = (if idx = 4 then v.extractLsb' 0 8 else s.frameLo) ∧
      t.waitCfg = (if idx = 8 then v.extractLsb' 0 16 else s.waitCfg) ∧
      t.phase = .idle ∧ t.result = s.result ∧ t.bare = s.bare ∧ t.bitidx = s.bitidx ∧ t.data = s.data ∧
      t.elapsed = s.elapsed ∧ t.errInfo = s.errInfo ∧ t.hc = s.hc ∧ t.k = s.k ∧ t.win = s.win ∧
      t.wlevel = s.wlevel ∧ t.sr = s.sr ∧ t.bitval = s.bitval

/-- While busy, a write to any word but CTRL and STATUS changes nothing. Rests on R46, R119, R157, R30. -/
def Obligations.BusyWritesAreIgnoredButCtrlAndStatus : Prop :=
  ∀ s : State, s.phase ≠ .idle → s.pins.rst = false →
    wordIndex s.pins.busAddr ≠ 0 → wordIndex s.pins.busAddr ≠ 2 → step s = step s.withoutWrite

/-- A write to CTRL sets IE whether the block is busy or idle, and only such a write changes IE. Rests on R22, R46,
R117. -/
def Obligations.CtrlWriteTakesEffectInEveryPhase : Prop :=
  ∀ s : State, s.Legal → s.pins.rst = false →
    ∃ t, step s = .next t ∧
      (s.Writes 0 → t.ie = s.pins.busWdata.getLsbD 0) ∧ (¬ s.Writes 0 → t.ie = s.ie)

/-- A completion sets DONE against a clearing write; otherwise write-1 clears and write-0 does nothing. Formalises
R121. -/
def Obligations.DoneSetWinsOverClear : Prop :=
  ∀ s t : State, s.pins.rst = false → step s = .next t →
    (s.phase ≠ .idle ∧ t.phase = .idle → t.done = true) ∧
    (¬ (s.phase ≠ .idle ∧ t.phase = .idle) → s.Writes 2 → s.pins.busWdata.getLsbD 1 = true → t.done = false) ∧
    (s.Writes 2 → s.pins.busWdata.getLsbD 1 = false → step s = step s.withoutWrite)

/-- irq is 1 after a completion exactly if IE is, drops when DONE or IE is cleared, and is 0 while busy. Formalises
R142. -/
def Obligations.IrqNeverRisesWhileBusy : Prop :=
  ∀ s t : State, s.Inv → s.pins.rst = false → step s = .next t →
    (s.phase ≠ .idle ∧ t.phase = .idle → t.irq = t.ie) ∧
    (t.done = false ∨ t.ie = false → t.irq = false) ∧
    (s.busy = true → s.irq = false) ∧ (t.busy = true → t.irq = false)

/-- NOP and the reserved opcodes change no state, in every phase. Formalises R123, R126. -/
def Obligations.NopAndReservedCommandsChangeNothing : Prop :=
  ∀ (s : State) (i : Instr), i = .nop ∨ i = .reserved6 ∨ i = .reserved7 →
    exec i s = step s.withoutWrite ∧
    (s.Legal → s.phase = .idle → ∃ t, exec i s = .next t ∧ s.SameBlock t ∧ s.InputsAdvance t) ∧
    decodeWord 0xFFFFFFFF = .reserved7

/-- READ and READ_BARE accepted in IDLE start an attempt, with bare 0 and 1. Rests on R118, R124, R125, R34, R37. -/
def Obligations.ReadAndReadBareStartAnAttempt : Prop :=
  ∀ (s : State) (bare : Bool), s.Legal → s.phase = .idle →
    ∃ t, exec (if bare then .readBare else .read) s = .next t ∧ s.InputsAdvance t ∧
      t.phase = .hsIdleHigh ∧ t.hc = 0 ∧ t.bare = bare ∧
      t.done = false ∧ t.result = .none ∧ t.errInfo = ErrInfo.zero ∧
      t.frameHi = 0 ∧ t.frameLo = 0 ∧ t.data = Reading.zero ∧ t.sr = 0 ∧ t.bitval = false ∧ t.bitidx = 0 ∧
      t.ie = s.ie ∧ t.waitCfg = s.waitCfg ∧ t.elapsed = s.elapsed ∧ t.k = s.k ∧ t.win = s.win ∧ t.wlevel = s.wlevel

/-- VALIDATE accepted in IDLE enters the VALIDATE phase on the frame registers as they stand. Rests on R118, R114. -/
def Obligations.ValidateStartsVal : Prop :=
  ∀ s : State, s.Legal → s.phase = .idle →
    ∃ t, exec .validate s = .next t ∧ s.InputsAdvance t ∧
      t.phase = .validate ∧ t.done = false ∧ t.result = .none ∧ t.errInfo = ErrInfo.zero ∧ t.data = Reading.zero ∧
      t.frameHi = s.frameHi ∧ t.frameLo = s.frameLo ∧ t.ie = s.ie ∧ t.waitCfg = s.waitCfg ∧ t.elapsed = s.elapsed ∧
      t.bare = s.bare ∧ t.bitidx = s.bitidx ∧ t.hc = s.hc ∧ t.k = s.k ∧ t.win = s.win ∧ t.wlevel = s.wlevel ∧
      t.sr = s.sr ∧ t.bitval = s.bitval

/-- WAIT_LOW and WAIT_HIGH accepted in IDLE start a wait for their level. Rests on R118, R78, R79, R67, R57. -/
def Obligations.WaitCommandsStartAWait : Prop :=
  ∀ (s : State) (level : Level), s.Legal → s.phase = .idle →
    ∃ t, exec (match level with | .low => .waitLow | .high => .waitHigh) s = .next t ∧ s.InputsAdvance t ∧
      t.phase = .waitCmd ∧ t.wlevel = level ∧ t.k = 0 ∧ t.win = 0 ∧ t.wait = some ⟨level, s.waitCfg⟩ ∧
      t.done = false ∧ t.result = .none ∧ t.errInfo = ErrInfo.zero ∧
      t.frameHi = s.frameHi ∧ t.frameLo = s.frameLo ∧ t.data = s.data ∧ t.ie = s.ie ∧ t.waitCfg = s.waitCfg ∧
      t.elapsed = s.elapsed ∧ t.bare = s.bare ∧ t.bitidx = s.bitidx ∧ t.hc = s.hc ∧ t.sr = s.sr ∧ t.bitval = s.bitval

/-- Every byte of the register space that a command does not write reads as before. Rests on R118, R123, R126, R45. -/
def Obligations.AcceptedCommandsFrame : Prop :=
  ∀ (i : Instr) (s t : State), s.phase = .idle → exec i s = .next t →
    let attempt := i = .read ∨ i = .readBare
    let wait := i = .waitLow ∨ i = .waitHigh
    (∀ idx : BitVec 4, idx ≠ 2 → idx ≠ 3 → idx ≠ 4 → idx ≠ 5 → idx ≠ 7 → t.regValue idx = s.regValue idx) ∧
    (¬ attempt → t.regValue 3 = s.regValue 3 ∧ t.regValue 4 = s.regValue 4) ∧
    (¬ attempt → i ≠ .validate → t.regValue 5 = s.regValue 5) ∧
    (¬ attempt → ¬ wait → i ≠ .validate → ∀ idx, t.regValue idx = s.regValue idx) ∧
    (¬ attempt → t.hc = s.hc ∧ t.sr = s.sr ∧ t.bitval = s.bitval ∧ t.bitidx = s.bitidx ∧ t.bare = s.bare) ∧
    (¬ wait → t.k = s.k ∧ t.win = s.win ∧ t.wlevel = s.wlevel)

/-- A CMD write while the block is busy is ignored, whatever its OP. Formalises R119. -/
def Obligations.CommandsWhileBusyAreIgnored : Prop :=
  ∀ (i : Instr) (s : State), s.phase ≠ .idle →
    exec i s = step s.withoutWrite ∧ (s.Legal → ∃ t, exec i s = .next t)

/-- An idle block changes nothing without a write and without reset. Rests on R129, R148, R117. -/
def Obligations.IdleBlockIsQuiescent : Prop :=
  ∀ s : State, s.Legal → s.phase = .idle → s.pins.rst = false → s.pins.busWe = false →
    ∃ t, step s = .next t ∧ s.SameBlock t ∧ s.InputsAdvance t

/-- RESULT, ERRINFO and DATA of a completed command stand until the next accept or reset, DONE until cleared. Rests
on R135, R158, R27, R118. -/
def Obligations.ResultsStandUntilAcceptOrReset : Prop :=
  ∀ s : State, s.Legal → s.phase = .idle → s.pins.rst = false → s.accepts = none →
    ∃ t, step s = .next t ∧ t.phase = .idle ∧ t.result = s.result ∧ t.errInfo = s.errInfo ∧ t.data = s.data ∧
      t.elapsed = s.elapsed ∧ t.bitidx = s.bitidx ∧ t.done = s.doneAfter

/-- One edge of a drive phase counts hc or enters the next phase with hc 0. Rests on R81, R82, R83, R84, R67, R117. -/
def Obligations.DrivePhaseCountsOrLeaves : Prop :=
  ∀ s : State, s.Legal → s.phase.isDrive = true → s.pins.rst = false →
    ∃ t, step s = .next t ∧ s.InputsAdvance t ∧
      (s.hc.toNat + 1 = s.holdCycles → t.hc = 0 ∧ t.phase = s.driveNext) ∧
      (s.hc.toNat + 1 ≠ s.holdCycles → t.hc = s.hc + 1 ∧ t.phase = s.phase) ∧
      (if s.phase = .hsRelease ∧ s.hc.toNat + 1 = s.holdCycles then t.k = 0 ∧ t.win = 0 else t.k = s.k ∧ t.win = s.win) ∧
      t.ie = s.ieAfter ∧ t.done = s.doneAfter ∧ t.result = s.result ∧ t.errInfo = s.errInfo ∧ t.data = s.data ∧
      t.frameHi = s.frameHi ∧ t.frameLo = s.frameLo ∧ t.elapsed = s.elapsed ∧ t.waitCfg = s.waitCfg ∧
      t.bare = s.bare ∧ t.bitidx = s.bitidx ∧ t.sr = s.sr ∧ t.bitval = s.bitval ∧ t.wlevel = s.wlevel

/-- A drive phase entered with hc 0 is the phase for exactly N cycles and drives the line as the table says. Rests
on R81, R82, R83, R84, R7, R20. -/
def Obligations.DrivePhaseLastsExactlyItsLength : Prop :=
  ∀ s : State, s.Legal → s.phase.isDrive = true → s.hc = 0 → s.NoReset s.holdCycles →
    1 ≤ s.holdCycles ∧
    (s.phase = .hsIdleHigh → s.holdCycles = 100 * s.cyclesPerUs) ∧
    (s.phase = .hsStartLow → s.holdCycles = 1000 * s.cyclesPerUs) ∧
    (s.phase = .hsRelease → s.holdCycles = 1) ∧
    (∀ j, j < s.holdCycles → ∃ t, runSteps j s = .next t ∧ t.phase = s.phase ∧ t.hc.toNat = j ∧ t.lineOe = true ∧
      (t.lineOut = .low ↔ s.phase = .hsStartLow)) ∧
    (∃ t, runSteps s.holdCycles s = .next t ∧ t.phase = s.driveNext ∧ t.hc = 0)

/-- An edge of a wait that neither matches nor times out takes one sample and changes only k and win. Rests on R71,
R68, R70, R69. -/
def Obligations.WaitEdgeWithoutEndOnlyCounts : Prop :=
  ∀ (s : State) (w : Wait), s.Legal → s.wait = some w → s.pins.rst = false →
    s.k.toNat + 1 < usToCycles s.cyclesPerUs w.timeoutUs →
    ¬ (3 ≤ s.k.toNat + 1 ∧ shiftWindow s.win s.sample = fullWindow w.level) →
    ∃ t, step s = .next t ∧ s.InputsAdvance t ∧
      t.k.toNat = s.k.toNat + 1 ∧ t.win.toNat = (2 * s.win.toNat + (levelBit s.sync2).toNat) % 8 ∧ t.phase = s.phase ∧
      t.ie = s.ieAfter ∧ t.done = s.doneAfter ∧ t.result = s.result ∧ t.errInfo = s.errInfo ∧ t.data = s.data ∧
      t.frameHi = s.frameHi ∧ t.frameLo = s.frameLo ∧ t.elapsed = s.elapsed ∧ t.waitCfg = s.waitCfg ∧
      t.bare = s.bare ∧ t.bitidx = s.bitidx ∧ t.sr = s.sr ∧ t.bitval = s.bitval ∧ t.wlevel = s.wlevel ∧ t.hc = s.hc

/-- A match below the timeout writes ELAPSED and enters the next phase at the same edge. Rests on R71, R72, R67,
R77, R85, R86, R88, R89, R120. -/
def Obligations.WaitSuccessEdge : Prop :=
  ∀ (s : State) (w : Wait), s.Legal → s.wait = some w → s.pins.rst = false →
    s.k.toNat + 1 < usToCycles s.cyclesPerUs w.timeoutUs →
    3 ≤ s.k.toNat + 1 → shiftWindow s.win s.sample = fullWindow w.level →
    ∃ t, step s = .next t ∧ s.InputsAdvance t ∧
      t.elapsed.toNat = s.k.toNat + 1 ∧ t.phase = s.successPhase ∧
      (if t.phase.isWait = true then t.k = 0 ∧ t.win = 0 else t.k = s.k ∧ t.win = s.win) ∧
      (if s.phase = .waitCmd then t.done = true ∧ t.result = .ok else t.done = s.doneAfter ∧ t.result = s.result) ∧
      (t.phase ≠ .validate → t.frameHi = s.frameHi ∧ t.frameLo = s.frameLo) ∧
      (s.phase.isFrame = false → t.sr = s.sr ∧ t.bitval = s.bitval ∧ t.bitidx = s.bitidx) ∧
      t.ie = s.ieAfter ∧ t.errInfo = s.errInfo ∧ t.data = s.data ∧ t.waitCfg = s.waitCfg ∧ t.bare = s.bare ∧
      t.wlevel = s.wlevel ∧ t.hc = s.hc

/-- A timeout records RESULT, ERRINFO and DONE, returns to IDLE and changes nothing else. Formalises R133. -/
def Obligations.TimeoutIsRecordedAndEndsTheCommand : Prop :=
  ∀ (s : State) (w : Wait), s.Inv → s.wait = some w → s.pins.rst = false →
    usToCycles s.cyclesPerUs w.timeoutUs ≤ s.k.toNat + 1 →
    ∃ t, step s = .next t ∧ s.InputsAdvance t ∧
      t.result = .timeout ∧ t.done = true ∧ t.phase = .idle ∧
      t.errInfo.expLevel = w.level ∧ t.errInfo.site = s.phase ∧ t.errInfo.timeoutUs = w.timeoutUs ∧
      t.errInfo.bitidx = (if s.phase = .frWaitLow ∨ s.phase = .frWaitHigh then s.bitidx else 0) ∧
      t.elapsed = s.elapsed ∧ t.frameHi = s.frameHi ∧ t.frameLo = s.frameLo ∧ t.data = s.data ∧
      (s.phase ≠ .waitCmd → t.frameHi = 0 ∧ t.frameLo = 0 ∧ t.data = Reading.zero) ∧
      t.sr = s.sr ∧ t.bitidx = s.bitidx ∧ t.bitval = s.bitval ∧ t.k = s.k ∧ t.win = s.win ∧
      t.ie = s.ieAfter ∧ t.waitCfg = s.waitCfg ∧ t.bare = s.bare ∧ t.wlevel = s.wlevel ∧ t.hc = s.hc ∧
      t.lineOe = true ∧ t.lineOut = .high

/-- A wait succeeds at the first three matching samples if they end below T, else times out after max(T, 1) samples.
Formalises R72. -/
def Obligations.WaitEndsAtFirstMatchOrAtItsTimeout : Prop :=
  ∀ (s : State) (w : Wait), s.Legal → s.wait = some w → s.k = 0 → s.win = 0 →
    let T := usToCycles s.cyclesPerUs w.timeoutUs
    (s.phase ≠ .waitCmd → 100 ≤ T) ∧
    (∀ n, n < T → s.MatchAt w.level n → (∀ m, m < n → ¬ s.MatchAt w.level m) → s.NoReset n →
      ∃ t, runSteps n s = .next t ∧ t.elapsed.toNat = n ∧ t.phase = s.successPhase ∧
        (s.phase = .waitCmd → t.done = true ∧ t.result = .ok)) ∧
    ((∀ m, m < T → ¬ s.MatchAt w.level m) → s.NoReset (max T 1) →
      ∃ t, runSteps (max T 1) s = .next t ∧ t.phase = .idle ∧ t.done = true ∧ t.result = .timeout ∧
        t.errInfo = timeoutInfo w.level s.phase s.bitidx w.timeoutUs ∧ t.elapsed = s.elapsed) ∧
    (∀ j, j < max T 1 → (∀ m, m ≤ j → m < T → ¬ s.MatchAt w.level m) → s.NoReset j →
      ∃ t, runSteps j s = .next t ∧ t.phase = s.phase ∧ t.k.toNat = j)

/-- The sample affects an edge only in the wait phases, and in every wait phase the pin is an input. Formalises R75. -/
def Obligations.LineIsSampledOnlyInInputMode : Prop :=
  (∀ s : State, s.phase.isWait = true → s.lineOe = false) ∧
  (∀ (s : State) (l : Level), s.phase.isWait = false → step { s with sync2 := l } = step s)

/-- line_oe and line_out are the table's values in every phase. Formalises R20. -/
def Obligations.PinsFollowThePhase : Prop :=
  (∀ s : State, s.phase = .idle ∨ s.phase = .hsIdleHigh ∨ s.phase = .hsRelease ∨ s.phase = .validate →
    s.lineOe = true ∧ s.lineOut = .high) ∧
  (∀ s : State, s.phase = .hsStartLow → s.lineOe = true ∧ s.lineOut = .low) ∧
  (∀ s : State, (4 ≤ s.phase.code.toNat ∧ s.phase.code.toNat ≤ 10) ∨ s.phase.code.toNat = 12 →
    s.lineOe = false ∧ s.lineOut = .high) ∧
  (∀ s t : State, s.phase = t.phase → s.lineOe = t.lineOe ∧ s.lineOut = t.lineOut)

/-- ERRINFO packs as the rule says and takes the words of its table. Formalises R64. -/
def Obligations.ErrInfoWordsOfTheTable : Prop :=
  (∀ e : ErrInfo, e.word.extractLsb' 16 16 = e.timeoutUs ∧ e.word.extractLsb' 14 2 = 0 ∧
    e.word.extractLsb' 8 6 = e.bitidx ∧ e.word.extractLsb' 4 4 = e.site.code ∧ e.word.extractLsb' 1 3 = 0 ∧
    e.word.extractLsb' 0 1 = levelBit e.expLevel) ∧
  (timeoutInfo .high .hsAwaitSensorHigh 0 100).word = 0x00640041 ∧
  (timeoutInfo .low .hsAwaitAckLow 0 100).word = 0x00640050 ∧
  (timeoutInfo .high .hsAwaitAckHigh 0 100).word = 0x00640061 ∧
  (timeoutInfo .low .hsAwaitStartLow 0 200).word = 0x00C80070 ∧
  (timeoutInfo .high .hsAwaitStartHigh 0 200).word = 0x00C80081 ∧
  (timeoutInfo .low .frWaitLow 0 500).word = 0x01F40090 ∧
  (timeoutInfo .high .frWaitHigh 39 500).word = 0x01F427A1 ∧
  (timeoutInfo .high .waitCmd 0 100).word = 0x006400C1

/-- Await-Ack-High waits 100 µs for High, and its success goes to Await-Start-Low, or to FR in bare mode. Formalises
R87. -/
def Obligations.AckHighSuccessBranchesOnBare : Prop :=
  ∀ s : State, s.phase = .hsAwaitAckHigh →
    s.wait = some ⟨.high, 100⟩ ∧
    (s.Legal → s.pins.rst = false → s.k.toNat + 1 < 100 * s.cyclesPerUs → 3 ≤ s.k.toNat + 1 →
      shiftWindow s.win s.sample = 0b111 →
      ∃ t, step s = .next t ∧ t.k = 0 ∧ t.win = 0 ∧
        (s.bare = false → t.phase = .hsAwaitStartLow) ∧ (s.bare = true → t.phase = .frWaitLow)) ∧
    (s.Legal → s.pins.rst = false → 100 * s.cyclesPerUs ≤ s.k.toNat + 1 →
      ∃ t, step s = .next t ∧ t.phase = .idle ∧ t.errInfo.site.code = 6)

/-- FR_WAIT_LOW classifies the bit by its elapsed count against 50 µs and goes on to FR_WAIT_HIGH. Formalises R98,
R97. -/
def Obligations.FrWaitLowClassifiesTheBit : Prop :=
  ∀ s : State, s.Legal → s.phase = .frWaitLow → s.pins.rst = false →
    s.wait = some ⟨.low, 500⟩ ∧
    ∃ t, step s = .next t ∧ t.sr = s.sr ∧ t.bitidx = s.bitidx ∧
      (s.k.toNat + 1 < 500 * s.cyclesPerUs → 3 ≤ s.k.toNat + 1 → shiftWindow s.win s.sample = 0b000 →
        t.elapsed.toNat = s.k.toNat + 1 ∧ (t.bitval = true ↔ 50 * s.cyclesPerUs ≤ s.k.toNat + 1) ∧
        t.phase = .frWaitHigh ∧ t.k = 0 ∧ t.win = 0) ∧
      (500 * s.cyclesPerUs ≤ s.k.toNat + 1 → t.phase = .idle ∧ t.result = .timeout ∧
        t.errInfo.expLevel = .low ∧ t.errInfo.site.code = 9 ∧ t.errInfo.bitidx = s.bitidx ∧ t.errInfo.timeoutUs = 500)

/-- FR_WAIT_HIGH shifts the bit in and reads the next one, or completes the frame after 40. Formalises R99, R101. -/
def Obligations.FrWaitHighAccumulatesTheBit : Prop :=
  ∀ s : State, s.Legal → s.phase = .frWaitHigh → s.bitidx.toNat < 40 → s.pins.rst = false →
    s.wait = some ⟨.high, 500⟩ ∧
    ∃ t, step s = .next t ∧
      (s.k.toNat + 1 < 500 * s.cyclesPerUs → 3 ≤ s.k.toNat + 1 → shiftWindow s.win s.sample = 0b111 →
        t.elapsed.toNat = s.k.toNat + 1 ∧ t.sr.toNat = (2 * s.sr.toNat + s.bitval.toNat) % 2 ^ 40 ∧
        t.bitidx.toNat = s.bitidx.toNat + 1 ∧
        (s.bitidx.toNat + 1 < 40 → t.phase = .frWaitLow ∧ t.k = 0 ∧ t.win = 0 ∧
          t.frameHi = s.frameHi ∧ t.frameLo = s.frameLo) ∧
        (s.bitidx.toNat + 1 = 40 → t.phase = .validate ∧ t.frameHi.toNat * 256 + t.frameLo.toNat = t.sr.toNat ∧
          t.lineOe = true ∧ t.lineOut = .high)) ∧
      (500 * s.cyclesPerUs ≤ s.k.toNat + 1 → t.phase = .idle ∧ t.result = .timeout ∧
        t.errInfo.expLevel = .high ∧ t.errInfo.site.code = 10 ∧ t.errInfo.bitidx = s.bitidx ∧ t.errInfo.timeoutUs = 500 ∧
        t.sr = s.sr ∧ t.bitidx = s.bitidx)

/-- After 40 shifts bit i of the frame is bit 7 − (i mod 8) of byte i / 8, whatever sr held before. Formalises R100. -/
def Obligations.FortyBitsAssembleMsbFirst : Prop :=
  (∀ (bits : List Bool) (before : BitVec 40) (s : State), bits.length = 40 →
    let sr := bits.foldl shiftIn before
    let t := frameComplete sr s
    ∀ i, i < 40 →
      sr.getLsbD (39 - i) = bits.getD i false ∧
      (([t.b1, t.b2, t.b3, t.b4, t.b5].getD (i / 8) 0).getLsbD (7 - i % 8)) = bits.getD i false) ∧
  (∀ (i : Instr) (s t : State), i = .read ∨ i = .readBare → s.phase = .idle → exec i s = .next t → t.sr = 0)

/-- A High run of d samples is read as 1 exactly if d reaches 50 µs. Rests on R96, R97, R98, R103, R76. -/
def Obligations.BitIsClassifiedByItsHighRun : Prop :=
  ∀ (s : State) (d : Nat), s.Legal → s.phase = .frWaitLow → s.k = 0 → s.win = 0 →
    3 ≤ d → d < 500 * s.cyclesPerUs →
    (∀ j, j < d - 3 → s.sampleAt j = .high) → (∀ j, d - 3 ≤ j → j < d → s.sampleAt j = .low) → s.NoReset d →
    ∃ t, runSteps d s = .next t ∧ t.phase = .frWaitHigh ∧ t.elapsed.toNat = d ∧
      (t.bitval = true ↔ 50 * s.cyclesPerUs ≤ d)

/-- Validate checks the checksum, then humidity, then temperature, and accepts the bounds. Formalises R106, R107,
R109, R111. -/
def Obligations.ValidateOutcomeByChecksumThenRanges : Prop :=
  ∀ b1 b2 b3 b4 b5 : Byte,
    let sum := (b1.toNat + b2.toNat + b3.toNat + b4.toNat) % 256
    let H := b1.toNat * 256 + b2.toNat
    let T := b3.toNat * 256 + b4.toNat
    (validate b1 b2 b3 b4 b5 = .checksumMismatch ↔ sum ≠ b5.toNat) ∧
    (validate b1 b2 b3 b4 b5 = .humidityOutOfRange ↔ sum = b5.toNat ∧ H > 1000) ∧
    (validate b1 b2 b3 b4 b5 = .temperatureOutOfRange ↔ sum = b5.toNat ∧ H ≤ 1000 ∧ T > 800) ∧
    (∀ h t, validate b1 b2 b3 b4 b5 = .ok h t ↔
      sum = b5.toNat ∧ H ≤ 1000 ∧ T ≤ 800 ∧ h.toNat = H ∧ t.toNat = T)

/-- The VALIDATE phase lasts one edge, which records the verdict on the frame as it stood. Formalises R113. -/
def Obligations.ValidatePhaseRecordsTheVerdict : Prop :=
  ∀ s : State, s.Legal → s.phase = .validate → s.pins.rst = false →
    s.lineOe = true ∧ s.lineOut = .high ∧ (∀ l, step { s with sync2 := l } = step s) ∧
    ∃ t, step s = .next t ∧ s.InputsAdvance t ∧ t.phase = .idle ∧ t.done = true ∧
      t.frameHi = s.frameHi ∧ t.frameLo = s.frameLo ∧ t.errInfo = s.errInfo ∧ t.elapsed = s.elapsed ∧
      (match validate (s.frameHi.extractLsb' 24 8) (s.frameHi.extractLsb' 16 8) (s.frameHi.extractLsb' 8 8)
          (s.frameHi.extractLsb' 0 8) s.frameLo with
        | .ok h v => t.result = .ok ∧ t.data = ⟨h, v⟩
        | .checksumMismatch => t.result = .checksumMismatch ∧ t.data = s.data
        | .humidityOutOfRange => t.result = .humidityOutOfRange ∧ t.data = s.data
        | .temperatureOutOfRange => t.result = .temperatureOutOfRange ∧ t.data = s.data)

/-- VALIDATE completes one edge after its accept with the outcome of Validate on the frame the host wrote. Rests on
R114, R115, R166, R120. -/
def Obligations.ValidateCommandCompletesOneEdgeAfterAccept : Prop :=
  ∀ s : State, s.Legal → s.phase = .idle → (s.portsAt 1).rst = false →
    ∃ u t, exec .validate s = .next u ∧ u.busy = true ∧ u.done = false ∧ step u = .next t ∧
      t.busy = false ∧ t.done = true ∧ t.frameHi = s.frameHi ∧ t.frameLo = s.frameLo ∧ t.errInfo = ErrInfo.zero ∧
      (match s.verdict with
        | .ok h v => t.result = .ok ∧ t.data = ⟨h, v⟩
        | .checksumMismatch => t.result = .checksumMismatch ∧ t.data = Reading.zero
        | .humidityOutOfRange => t.result = .humidityOutOfRange ∧ t.data = Reading.zero
        | .temperatureOutOfRange => t.result = .temperatureOutOfRange ∧ t.data = Reading.zero)

/-- The invariant holds in the reset state. Rests on R42, R62, R63, R155. -/
def Obligations.InvariantHoldsAtReset : Prop :=
  State.reset.Inv

/-- Every edge keeps the invariant, whatever the inputs. Rests on R117, R122, R155, R134, R108, R102, R127, R8. -/
def Obligations.StepKeepsTheInvariant : Prop :=
  ∀ s : State, s.Inv → ∃ t, step s = .next t ∧ t.Inv

/-- Every transition of the phase is in the transition table and no other exists. Formalises R122. -/
def Obligations.PhaseFollowsTheTransitionTable : Prop :=
  ∀ s t : State, step s = .next t → t.phase = s.tablePhase

/-- Every running command ends within a bound, with DONE and a result recorded. Rests on R127, R73, R120, R135,
R131. -/
def Obligations.EveryCommandEndsWithinItsBound : Prop :=
  (∀ s : State, s.Inv → s.busy = true →
    ∃ n t, 1 ≤ n ∧ n ≤ s.edgesLeft ∧ runSteps n s = .next t ∧ t.phase = .idle ∧
      t.lineOe = true ∧ t.lineOut = .high ∧
      (∀ j, j < n → ∃ u, runSteps j s = .next u ∧ u.busy = true) ∧
      (s.NoReset n → t.done = true ∧ 1 ≤ t.result.code.toNat ∧ t.result.code.toNat ≤ 5)) ∧
  (∀ s : State, s.phase = .waitCmd → s.k = 0 → s.edgesLeft = max (usToCycles s.cyclesPerUs s.waitCfg) 1)

/-- An accepted READ or READ_BARE ends within the longest-READ figure, without partial results. Rests on R124, R125,
R127, R166, R102. -/
def Obligations.AcceptedReadEndsWithinTheLongestRead : Prop :=
  ∀ (s u : State) (i : Instr), s.Inv → s.phase = .idle → i = .read ∨ i = .readBare → exec i s = .next u →
    u.NoReset (longestRead s.cyclesPerUs) →
    ∃ n t, n ≤ longestRead s.cyclesPerUs ∧ runSteps n u = .next t ∧ t.phase = .idle ∧ t.done = true ∧
      1 ≤ t.result.code.toNat ∧ t.result.code.toNat ≤ 5 ∧
      (∀ j, j < n → ∃ v, runSteps j u = .next v ∧ v.busy = true) ∧
      (t.result ≠ .ok → t.data = Reading.zero) ∧
      (t.result = .timeout → t.frameHi = 0 ∧ t.frameLo = 0)

/-- READ on a line that never leaves Low during the High-wait times out at site 4 exactly 1200·C + 1 edges after its
accept. Rests on R93, R166, R64, R133, R19. -/
def Obligations.StuckLowReadTimesOutExactly : Prop :=
  ∀ (s u : State) (i : Instr), s.Legal → s.phase = .idle → i = .read ∨ i = .readBare → exec i s = .next u →
    u.NoReset (1200 * s.cyclesPerUs + 1) →
    (∀ j, 1100 * s.cyclesPerUs + 1 ≤ j → j < 1200 * s.cyclesPerUs + 1 → (u.portsAt j).lineIn = .low) →
    (∀ j, j < 1200 * s.cyclesPerUs + 1 → ∃ v, runSteps j u = .next v ∧ v.busy = true) ∧
    ∃ t, runSteps (1200 * s.cyclesPerUs + 1) u = .next t ∧ t.phase = .idle ∧ t.done = true ∧ t.result = .timeout ∧
      t.errInfo.word = 0x00640041 ∧ t.frameHi = 0 ∧ t.frameLo = 0 ∧ t.data = Reading.zero ∧ t.elapsed = s.elapsed

/-- Two attempts with the same command, clock rate and samples report the same, whatever earlier commands left and
whatever the host does meanwhile. Formalises R128. -/
def Obligations.AttemptDependsOnlyOnCommandRateAndSamples : Prop :=
  ∀ (s s' u u' : State) (i : Instr), s.Legal → s.phase = .idle → s'.Legal → s'.phase = .idle →
    exec i s = .next u → exec i s' = .next u' →
    ∀ (n : Nat) (v : State), u.SameSamples u' n → runSteps n u = .next v →
      (∀ j w, j < n → runSteps j u = .next w → w.busy = true) →
      (i = .read ∨ i = .readBare → ∃ v', runSteps n u' = .next v' ∧ v.SameAttempt v') ∧
      (i = .validate → s'.frameHi = s.frameHi → s'.frameLo = s.frameLo →
        ∃ v', runSteps n u' = .next v' ∧ v.SameOutcome v')

/-- DATA changes only by an OK verdict, or to 0 by reset and by the accept of READ, READ_BARE or VALIDATE. Rests on
R27, R113, R108, R118. -/
def Obligations.DataIsWrittenOnlyByAnOkVerdict : Prop :=
  ∀ s t : State, step s = .next t → t.data ≠ s.data →
    (s.pins.rst = false ∧ s.phase = .validate ∧ t.result = .ok ∧ s.verdict = .ok t.data.humRaw t.data.tempRaw ∧
      t.data.humRaw.toNat ≤ 1000 ∧ t.data.tempRaw.toNat ≤ 800) ∨
    (t.data = Reading.zero ∧
      (s.pins.rst = true ∨ s.accepts = some .read ∨ s.accepts = some .readBare ∨ s.accepts = some .validate))

/-- ELAPSED changes only by the success of a wait, to the number of samples it took, or by reset. Rests on R28, R71,
R133, R118. -/
def Obligations.ElapsedIsWrittenOnlyByASuccess : Prop :=
  ∀ s t : State, s.pins.rst = false → step s = .next t → t.elapsed ≠ s.elapsed →
    ∃ w, s.wait = some w ∧ t.elapsed.toNat = s.k.toNat + 1 ∧ 3 ≤ t.elapsed.toNat ∧
      t.elapsed.toNat < usToCycles s.cyclesPerUs w.timeoutUs ∧ t.phase = s.successPhase

/-- A READ that times out leaves FRAME and DATA 0; a rejected frame leaves DATA 0 and ERRINFO 0. Rests on R102,
R134, R127, R135. -/
def Obligations.FailedAttemptLeavesNoPartialResult : Prop :=
  ∀ s t : State, s.Inv → s.pins.rst = false → step s = .next t →
    (s.phase.isReading = true → t.phase = .idle →
      t.result = .timeout ∧ t.done = true ∧ t.frameHi = 0 ∧ t.frameLo = 0 ∧ t.data = Reading.zero) ∧
    (s.phase = .validate → t.result ≠ .ok →
      t.data = Reading.zero ∧ t.errInfo = ErrInfo.zero ∧ t.frameHi = s.frameHi ∧ t.frameLo = s.frameLo)

/-- While a READ runs, RESULT = NONE, DONE = 0 and DATA = 0, and FRAME = 0 until frame completion (the VALIDATE
cycle of R155: log entry 19). Rests on R155, R101, R25, R113, R118. -/
def Obligations.RunningAttemptShowsNoResult : Prop :=
  ∀ (s u : State) (i : Instr), s.Legal → s.phase = .idle → i = .read ∨ i = .readBare → exec i s = .next u →
    ∀ (n : Nat) (v : State), runSteps n u = .next v →
      (∀ j, j ≤ n → ∃ w, runSteps j u = .next w ∧ w.busy = true) →
      v.result = .none ∧ v.done = false ∧ v.irq = false ∧ v.errInfo = ErrInfo.zero ∧ v.data = Reading.zero ∧
      (v.phase ≠ .validate → v.frameHi = 0 ∧ v.frameLo = 0) ∧
      (v.phase = .validate → v.frameHi.toNat * 256 + v.frameLo.toNat = v.sr.toNat)
end

