-- ==== Sys2Proof/Laws/State.lean ====
section
/-! SUPPORT. For every named update of State, what each field is after it: true by unfolding, so that no later proof
unfolds a record update. -/

namespace Sys2Proof.Machine

section

variable (code : Result) (s : State)

@[simp] theorem complete_ie : (complete code s).ie = s.ie := rfl
@[simp] theorem complete_done : (complete code s).done = true := rfl
@[simp] theorem complete_result : (complete code s).result = code := rfl
@[simp] theorem complete_phase : (complete code s).phase = .idle := rfl
@[simp] theorem complete_bare : (complete code s).bare = s.bare := rfl
@[simp] theorem complete_bitidx : (complete code s).bitidx = s.bitidx := rfl
@[simp] theorem complete_frameHi : (complete code s).frameHi = s.frameHi := rfl
@[simp] theorem complete_frameLo : (complete code s).frameLo = s.frameLo := rfl
@[simp] theorem complete_data : (complete code s).data = s.data := rfl
@[simp] theorem complete_elapsed : (complete code s).elapsed = s.elapsed := rfl
@[simp] theorem complete_errInfo : (complete code s).errInfo = s.errInfo := rfl
@[simp] theorem complete_waitCfg : (complete code s).waitCfg = s.waitCfg := rfl
@[simp] theorem complete_hc : (complete code s).hc = s.hc := rfl
@[simp] theorem complete_k : (complete code s).k = s.k := rfl
@[simp] theorem complete_win : (complete code s).win = s.win := rfl
@[simp] theorem complete_wlevel : (complete code s).wlevel = s.wlevel := rfl
@[simp] theorem complete_sr : (complete code s).sr = s.sr := rfl
@[simp] theorem complete_bitval : (complete code s).bitval = s.bitval := rfl
@[simp] theorem complete_sync1 : (complete code s).sync1 = s.sync1 := rfl
@[simp] theorem complete_sync2 : (complete code s).sync2 = s.sync2 := rfl
@[simp] theorem complete_cyclesPerUsPred : (complete code s).cyclesPerUsPred = s.cyclesPerUsPred := rfl
@[simp] theorem complete_pins : (complete code s).pins = s.pins := rfl
@[simp] theorem complete_script : (complete code s).script = s.script := rfl
@[simp] theorem complete_cycle : (complete code s).cycle = s.cycle := rfl

end

section

variable (p : Phase) (s : State)

@[simp] theorem enterDrive_ie : (enterDrive p s).ie = s.ie := rfl
@[simp] theorem enterDrive_done : (enterDrive p s).done = s.done := rfl
@[simp] theorem enterDrive_result : (enterDrive p s).result = s.result := rfl
@[simp] theorem enterDrive_phase : (enterDrive p s).phase = p := rfl
@[simp] theorem enterDrive_bare : (enterDrive p s).bare = s.bare := rfl
@[simp] theorem enterDrive_bitidx : (enterDrive p s).bitidx = s.bitidx := rfl
@[simp] theorem enterDrive_frameHi : (enterDrive p s).frameHi = s.frameHi := rfl
@[simp] theorem enterDrive_frameLo : (enterDrive p s).frameLo = s.frameLo := rfl
@[simp] theorem enterDrive_data : (enterDrive p s).data = s.data := rfl
@[simp] theorem enterDrive_elapsed : (enterDrive p s).elapsed = s.elapsed := rfl
@[simp] theorem enterDrive_errInfo : (enterDrive p s).errInfo = s.errInfo := rfl
@[simp] theorem enterDrive_waitCfg : (enterDrive p s).waitCfg = s.waitCfg := rfl
@[simp] theorem enterDrive_hc : (enterDrive p s).hc = 0 := rfl
@[simp] theorem enterDrive_k : (enterDrive p s).k = s.k := rfl
@[simp] theorem enterDrive_win : (enterDrive p s).win = s.win := rfl
@[simp] theorem enterDrive_wlevel : (enterDrive p s).wlevel = s.wlevel := rfl
@[simp] theorem enterDrive_sr : (enterDrive p s).sr = s.sr := rfl
@[simp] theorem enterDrive_bitval : (enterDrive p s).bitval = s.bitval := rfl
@[simp] theorem enterDrive_sync1 : (enterDrive p s).sync1 = s.sync1 := rfl
@[simp] theorem enterDrive_sync2 : (enterDrive p s).sync2 = s.sync2 := rfl
@[simp] theorem enterDrive_cyclesPerUsPred : (enterDrive p s).cyclesPerUsPred = s.cyclesPerUsPred := rfl
@[simp] theorem enterDrive_pins : (enterDrive p s).pins = s.pins := rfl
@[simp] theorem enterDrive_script : (enterDrive p s).script = s.script := rfl
@[simp] theorem enterDrive_cycle : (enterDrive p s).cycle = s.cycle := rfl

end

section

variable (p : Phase) (s : State)

@[simp] theorem startWait_ie : (startWait p s).ie = s.ie := rfl
@[simp] theorem startWait_done : (startWait p s).done = s.done := rfl
@[simp] theorem startWait_result : (startWait p s).result = s.result := rfl
@[simp] theorem startWait_phase : (startWait p s).phase = p := rfl
@[simp] theorem startWait_bare : (startWait p s).bare = s.bare := rfl
@[simp] theorem startWait_bitidx : (startWait p s).bitidx = s.bitidx := rfl
@[simp] theorem startWait_frameHi : (startWait p s).frameHi = s.frameHi := rfl
@[simp] theorem startWait_frameLo : (startWait p s).frameLo = s.frameLo := rfl
@[simp] theorem startWait_data : (startWait p s).data = s.data := rfl
@[simp] theorem startWait_elapsed : (startWait p s).elapsed = s.elapsed := rfl
@[simp] theorem startWait_errInfo : (startWait p s).errInfo = s.errInfo := rfl
@[simp] theorem startWait_waitCfg : (startWait p s).waitCfg = s.waitCfg := rfl
@[simp] theorem startWait_hc : (startWait p s).hc = s.hc := rfl
@[simp] theorem startWait_k : (startWait p s).k = 0 := rfl
@[simp] theorem startWait_win : (startWait p s).win = 0 := rfl
@[simp] theorem startWait_wlevel : (startWait p s).wlevel = s.wlevel := rfl
@[simp] theorem startWait_sr : (startWait p s).sr = s.sr := rfl
@[simp] theorem startWait_bitval : (startWait p s).bitval = s.bitval := rfl
@[simp] theorem startWait_sync1 : (startWait p s).sync1 = s.sync1 := rfl
@[simp] theorem startWait_sync2 : (startWait p s).sync2 = s.sync2 := rfl
@[simp] theorem startWait_cyclesPerUsPred : (startWait p s).cyclesPerUsPred = s.cyclesPerUsPred := rfl
@[simp] theorem startWait_pins : (startWait p s).pins = s.pins := rfl
@[simp] theorem startWait_script : (startWait p s).script = s.script := rfl
@[simp] theorem startWait_cycle : (startWait p s).cycle = s.cycle := rfl

end

section

variable (s : State)

@[simp] theorem acceptCommon_ie : (acceptCommon s).ie = s.ie := rfl
@[simp] theorem acceptCommon_done : (acceptCommon s).done = false := rfl
@[simp] theorem acceptCommon_result : (acceptCommon s).result = .none := rfl
@[simp] theorem acceptCommon_phase : (acceptCommon s).phase = s.phase := rfl
@[simp] theorem acceptCommon_bare : (acceptCommon s).bare = s.bare := rfl
@[simp] theorem acceptCommon_bitidx : (acceptCommon s).bitidx = s.bitidx := rfl
@[simp] theorem acceptCommon_frameHi : (acceptCommon s).frameHi = s.frameHi := rfl
@[simp] theorem acceptCommon_frameLo : (acceptCommon s).frameLo = s.frameLo := rfl
@[simp] theorem acceptCommon_data : (acceptCommon s).data = s.data := rfl
@[simp] theorem acceptCommon_elapsed : (acceptCommon s).elapsed = s.elapsed := rfl
@[simp] theorem acceptCommon_errInfo : (acceptCommon s).errInfo = ErrInfo.zero := rfl
@[simp] theorem acceptCommon_waitCfg : (acceptCommon s).waitCfg = s.waitCfg := rfl
@[simp] theorem acceptCommon_hc : (acceptCommon s).hc = s.hc := rfl
@[simp] theorem acceptCommon_k : (acceptCommon s).k = s.k := rfl
@[simp] theorem acceptCommon_win : (acceptCommon s).win = s.win := rfl
@[simp] theorem acceptCommon_wlevel : (acceptCommon s).wlevel = s.wlevel := rfl
@[simp] theorem acceptCommon_sr : (acceptCommon s).sr = s.sr := rfl
@[simp] theorem acceptCommon_bitval : (acceptCommon s).bitval = s.bitval := rfl
@[simp] theorem acceptCommon_sync1 : (acceptCommon s).sync1 = s.sync1 := rfl
@[simp] theorem acceptCommon_sync2 : (acceptCommon s).sync2 = s.sync2 := rfl
@[simp] theorem acceptCommon_cyclesPerUsPred : (acceptCommon s).cyclesPerUsPred = s.cyclesPerUsPred := rfl
@[simp] theorem acceptCommon_pins : (acceptCommon s).pins = s.pins := rfl
@[simp] theorem acceptCommon_script : (acceptCommon s).script = s.script := rfl
@[simp] theorem acceptCommon_cycle : (acceptCommon s).cycle = s.cycle := rfl

end

section

variable (l : Level) (p : Phase) (b : BitVec 6) (u : BitVec 16) (s : State)

@[simp] theorem raiseTimeout_ie : (raiseTimeout l p b u s).ie = s.ie := rfl
@[simp] theorem raiseTimeout_done : (raiseTimeout l p b u s).done = true := rfl
@[simp] theorem raiseTimeout_result : (raiseTimeout l p b u s).result = .timeout := rfl
@[simp] theorem raiseTimeout_phase : (raiseTimeout l p b u s).phase = .idle := rfl
@[simp] theorem raiseTimeout_bare : (raiseTimeout l p b u s).bare = s.bare := rfl
@[simp] theorem raiseTimeout_bitidx : (raiseTimeout l p b u s).bitidx = s.bitidx := rfl
@[simp] theorem raiseTimeout_frameHi : (raiseTimeout l p b u s).frameHi = s.frameHi := rfl
@[simp] theorem raiseTimeout_frameLo : (raiseTimeout l p b u s).frameLo = s.frameLo := rfl
@[simp] theorem raiseTimeout_data : (raiseTimeout l p b u s).data = s.data := rfl
@[simp] theorem raiseTimeout_elapsed : (raiseTimeout l p b u s).elapsed = s.elapsed := rfl
@[simp] theorem raiseTimeout_errInfo : (raiseTimeout l p b u s).errInfo = timeoutInfo l p b u := rfl
@[simp] theorem raiseTimeout_waitCfg : (raiseTimeout l p b u s).waitCfg = s.waitCfg := rfl
@[simp] theorem raiseTimeout_hc : (raiseTimeout l p b u s).hc = s.hc := rfl
@[simp] theorem raiseTimeout_k : (raiseTimeout l p b u s).k = s.k := rfl
@[simp] theorem raiseTimeout_win : (raiseTimeout l p b u s).win = s.win := rfl
@[simp] theorem raiseTimeout_wlevel : (raiseTimeout l p b u s).wlevel = s.wlevel := rfl
@[simp] theorem raiseTimeout_sr : (raiseTimeout l p b u s).sr = s.sr := rfl
@[simp] theorem raiseTimeout_bitval : (raiseTimeout l p b u s).bitval = s.bitval := rfl
@[simp] theorem raiseTimeout_sync1 : (raiseTimeout l p b u s).sync1 = s.sync1 := rfl
@[simp] theorem raiseTimeout_sync2 : (raiseTimeout l p b u s).sync2 = s.sync2 := rfl
@[simp] theorem raiseTimeout_cyclesPerUsPred : (raiseTimeout l p b u s).cyclesPerUsPred = s.cyclesPerUsPred := rfl
@[simp] theorem raiseTimeout_pins : (raiseTimeout l p b u s).pins = s.pins := rfl
@[simp] theorem raiseTimeout_script : (raiseTimeout l p b u s).script = s.script := rfl
@[simp] theorem raiseTimeout_cycle : (raiseTimeout l p b u s).cycle = s.cycle := rfl

end

section

variable (r : BitVec 40) (s : State)

@[simp] theorem frameComplete_ie : (frameComplete r s).ie = s.ie := rfl
@[simp] theorem frameComplete_done : (frameComplete r s).done = s.done := rfl
@[simp] theorem frameComplete_result : (frameComplete r s).result = s.result := rfl
@[simp] theorem frameComplete_phase : (frameComplete r s).phase = .validate := rfl
@[simp] theorem frameComplete_bare : (frameComplete r s).bare = s.bare := rfl
@[simp] theorem frameComplete_bitidx : (frameComplete r s).bitidx = s.bitidx := rfl
@[simp] theorem frameComplete_frameHi : (frameComplete r s).frameHi = r.extractLsb' 8 32 := rfl
@[simp] theorem frameComplete_frameLo : (frameComplete r s).frameLo = r.extractLsb' 0 8 := rfl
@[simp] theorem frameComplete_data : (frameComplete r s).data = s.data := rfl
@[simp] theorem frameComplete_elapsed : (frameComplete r s).elapsed = s.elapsed := rfl
@[simp] theorem frameComplete_errInfo : (frameComplete r s).errInfo = s.errInfo := rfl
@[simp] theorem frameComplete_waitCfg : (frameComplete r s).waitCfg = s.waitCfg := rfl
@[simp] theorem frameComplete_hc : (frameComplete r s).hc = s.hc := rfl
@[simp] theorem frameComplete_k : (frameComplete r s).k = s.k := rfl
@[simp] theorem frameComplete_win : (frameComplete r s).win = s.win := rfl
@[simp] theorem frameComplete_wlevel : (frameComplete r s).wlevel = s.wlevel := rfl
@[simp] theorem frameComplete_sr : (frameComplete r s).sr = s.sr := rfl
@[simp] theorem frameComplete_bitval : (frameComplete r s).bitval = s.bitval := rfl
@[simp] theorem frameComplete_sync1 : (frameComplete r s).sync1 = s.sync1 := rfl
@[simp] theorem frameComplete_sync2 : (frameComplete r s).sync2 = s.sync2 := rfl
@[simp] theorem frameComplete_cyclesPerUsPred : (frameComplete r s).cyclesPerUsPred = s.cyclesPerUsPred := rfl
@[simp] theorem frameComplete_pins : (frameComplete r s).pins = s.pins := rfl
@[simp] theorem frameComplete_script : (frameComplete r s).script = s.script := rfl
@[simp] theorem frameComplete_cycle : (frameComplete r s).cycle = s.cycle := rfl

end

section

variable (b : Bool) (s : State)

@[simp] theorem acceptAttempt_ie : (acceptAttempt b s).ie = s.ie := rfl
@[simp] theorem acceptAttempt_done : (acceptAttempt b s).done = false := rfl
@[simp] theorem acceptAttempt_result : (acceptAttempt b s).result = .none := rfl
@[simp] theorem acceptAttempt_phase : (acceptAttempt b s).phase = .hsIdleHigh := rfl
@[simp] theorem acceptAttempt_bare : (acceptAttempt b s).bare = b := rfl
@[simp] theorem acceptAttempt_bitidx : (acceptAttempt b s).bitidx = 0 := rfl
@[simp] theorem acceptAttempt_frameHi : (acceptAttempt b s).frameHi = 0 := rfl
@[simp] theorem acceptAttempt_frameLo : (acceptAttempt b s).frameLo = 0 := rfl
@[simp] theorem acceptAttempt_data : (acceptAttempt b s).data = Reading.zero := rfl
@[simp] theorem acceptAttempt_elapsed : (acceptAttempt b s).elapsed = s.elapsed := rfl
@[simp] theorem acceptAttempt_errInfo : (acceptAttempt b s).errInfo = ErrInfo.zero := rfl
@[simp] theorem acceptAttempt_waitCfg : (acceptAttempt b s).waitCfg = s.waitCfg := rfl
@[simp] theorem acceptAttempt_hc : (acceptAttempt b s).hc = 0 := rfl
@[simp] theorem acceptAttempt_k : (acceptAttempt b s).k = s.k := rfl
@[simp] theorem acceptAttempt_win : (acceptAttempt b s).win = s.win := rfl
@[simp] theorem acceptAttempt_wlevel : (acceptAttempt b s).wlevel = s.wlevel := rfl
@[simp] theorem acceptAttempt_sr : (acceptAttempt b s).sr = 0 := rfl
@[simp] theorem acceptAttempt_bitval : (acceptAttempt b s).bitval = false := rfl
@[simp] theorem acceptAttempt_sync1 : (acceptAttempt b s).sync1 = s.sync1 := rfl
@[simp] theorem acceptAttempt_sync2 : (acceptAttempt b s).sync2 = s.sync2 := rfl
@[simp] theorem acceptAttempt_cyclesPerUsPred : (acceptAttempt b s).cyclesPerUsPred = s.cyclesPerUsPred := rfl
@[simp] theorem acceptAttempt_pins : (acceptAttempt b s).pins = s.pins := rfl
@[simp] theorem acceptAttempt_script : (acceptAttempt b s).script = s.script := rfl
@[simp] theorem acceptAttempt_cycle : (acceptAttempt b s).cycle = s.cycle := rfl

end

section

variable (s : State)

@[simp] theorem acceptValidate_ie : (acceptValidate s).ie = s.ie := rfl
@[simp] theorem acceptValidate_done : (acceptValidate s).done = false := rfl
@[simp] theorem acceptValidate_result : (acceptValidate s).result = .none := rfl
@[simp] theorem acceptValidate_phase : (acceptValidate s).phase = .validate := rfl
@[simp] theorem acceptValidate_bare : (acceptValidate s).bare = s.bare := rfl
@[simp] theorem acceptValidate_bitidx : (acceptValidate s).bitidx = s.bitidx := rfl
@[simp] theorem acceptValidate_frameHi : (acceptValidate s).frameHi = s.frameHi := rfl
@[simp] theorem acceptValidate_frameLo : (acceptValidate s).frameLo = s.frameLo := rfl
@[simp] theorem acceptValidate_data : (acceptValidate s).data = Reading.zero := rfl
@[simp] theorem acceptValidate_elapsed : (acceptValidate s).elapsed = s.elapsed := rfl
@[simp] theorem acceptValidate_errInfo : (acceptValidate s).errInfo = ErrInfo.zero := rfl
@[simp] theorem acceptValidate_waitCfg : (acceptValidate s).waitCfg = s.waitCfg := rfl
@[simp] theorem acceptValidate_hc : (acceptValidate s).hc = s.hc := rfl
@[simp] theorem acceptValidate_k : (acceptValidate s).k = s.k := rfl
@[simp] theorem acceptValidate_win : (acceptValidate s).win = s.win := rfl
@[simp] theorem acceptValidate_wlevel : (acceptValidate s).wlevel = s.wlevel := rfl
@[simp] theorem acceptValidate_sr : (acceptValidate s).sr = s.sr := rfl
@[simp] theorem acceptValidate_bitval : (acceptValidate s).bitval = s.bitval := rfl
@[simp] theorem acceptValidate_sync1 : (acceptValidate s).sync1 = s.sync1 := rfl
@[simp] theorem acceptValidate_sync2 : (acceptValidate s).sync2 = s.sync2 := rfl
@[simp] theorem acceptValidate_cyclesPerUsPred : (acceptValidate s).cyclesPerUsPred = s.cyclesPerUsPred := rfl
@[simp] theorem acceptValidate_pins : (acceptValidate s).pins = s.pins := rfl
@[simp] theorem acceptValidate_script : (acceptValidate s).script = s.script := rfl
@[simp] theorem acceptValidate_cycle : (acceptValidate s).cycle = s.cycle := rfl

end

section

variable (l : Level) (s : State)

@[simp] theorem acceptWait_ie : (acceptWait l s).ie = s.ie := rfl
@[simp] theorem acceptWait_done : (acceptWait l s).done = false := rfl
@[simp] theorem acceptWait_result : (acceptWait l s).result = .none := rfl
@[simp] theorem acceptWait_phase : (acceptWait l s).phase = .waitCmd := rfl
@[simp] theorem acceptWait_bare : (acceptWait l s).bare = s.bare := rfl
@[simp] theorem acceptWait_bitidx : (acceptWait l s).bitidx = s.bitidx := rfl
@[simp] theorem acceptWait_frameHi : (acceptWait l s).frameHi = s.frameHi := rfl
@[simp] theorem acceptWait_frameLo : (acceptWait l s).frameLo = s.frameLo := rfl
@[simp] theorem acceptWait_data : (acceptWait l s).data = s.data := rfl
@[simp] theorem acceptWait_elapsed : (acceptWait l s).elapsed = s.elapsed := rfl
@[simp] theorem acceptWait_errInfo : (acceptWait l s).errInfo = ErrInfo.zero := rfl
@[simp] theorem acceptWait_waitCfg : (acceptWait l s).waitCfg = s.waitCfg := rfl
@[simp] theorem acceptWait_hc : (acceptWait l s).hc = s.hc := rfl
@[simp] theorem acceptWait_k : (acceptWait l s).k = 0 := rfl
@[simp] theorem acceptWait_win : (acceptWait l s).win = 0 := rfl
@[simp] theorem acceptWait_wlevel : (acceptWait l s).wlevel = l := rfl
@[simp] theorem acceptWait_sr : (acceptWait l s).sr = s.sr := rfl
@[simp] theorem acceptWait_bitval : (acceptWait l s).bitval = s.bitval := rfl
@[simp] theorem acceptWait_sync1 : (acceptWait l s).sync1 = s.sync1 := rfl
@[simp] theorem acceptWait_sync2 : (acceptWait l s).sync2 = s.sync2 := rfl
@[simp] theorem acceptWait_cyclesPerUsPred : (acceptWait l s).cyclesPerUsPred = s.cyclesPerUsPred := rfl
@[simp] theorem acceptWait_pins : (acceptWait l s).pins = s.pins := rfl
@[simp] theorem acceptWait_script : (acceptWait l s).script = s.script := rfl
@[simp] theorem acceptWait_cycle : (acceptWait l s).cycle = s.cycle := rfl

end

section

variable (s : State)

@[simp] theorem nextCycle_ie : (nextCycle s).ie = s.ie := rfl
@[simp] theorem nextCycle_done : (nextCycle s).done = s.done := rfl
@[simp] theorem nextCycle_result : (nextCycle s).result = s.result := rfl
@[simp] theorem nextCycle_phase : (nextCycle s).phase = s.phase := rfl
@[simp] theorem nextCycle_bare : (nextCycle s).bare = s.bare := rfl
@[simp] theorem nextCycle_bitidx : (nextCycle s).bitidx = s.bitidx := rfl
@[simp] theorem nextCycle_frameHi : (nextCycle s).frameHi = s.frameHi := rfl
@[simp] theorem nextCycle_frameLo : (nextCycle s).frameLo = s.frameLo := rfl
@[simp] theorem nextCycle_data : (nextCycle s).data = s.data := rfl
@[simp] theorem nextCycle_elapsed : (nextCycle s).elapsed = s.elapsed := rfl
@[simp] theorem nextCycle_errInfo : (nextCycle s).errInfo = s.errInfo := rfl
@[simp] theorem nextCycle_waitCfg : (nextCycle s).waitCfg = s.waitCfg := rfl
@[simp] theorem nextCycle_hc : (nextCycle s).hc = s.hc := rfl
@[simp] theorem nextCycle_k : (nextCycle s).k = s.k := rfl
@[simp] theorem nextCycle_win : (nextCycle s).win = s.win := rfl
@[simp] theorem nextCycle_wlevel : (nextCycle s).wlevel = s.wlevel := rfl
@[simp] theorem nextCycle_sr : (nextCycle s).sr = s.sr := rfl
@[simp] theorem nextCycle_bitval : (nextCycle s).bitval = s.bitval := rfl
@[simp] theorem nextCycle_sync1 : (nextCycle s).sync1 = s.sync1 := rfl
@[simp] theorem nextCycle_sync2 : (nextCycle s).sync2 = s.sync2 := rfl
@[simp] theorem nextCycle_cyclesPerUsPred : (nextCycle s).cyclesPerUsPred = s.cyclesPerUsPred := rfl
@[simp] theorem nextCycle_pins : (nextCycle s).pins = s.nextPorts := rfl
@[simp] theorem nextCycle_script : (nextCycle s).script = s.script.tail := rfl
@[simp] theorem nextCycle_cycle : (nextCycle s).cycle = s.cycle + 1 := rfl

end

section

variable (s : State)

@[simp] theorem latch_ie : (latch s).ie = s.ie := rfl
@[simp] theorem latch_done : (latch s).done = s.done := rfl
@[simp] theorem latch_result : (latch s).result = s.result := rfl
@[simp] theorem latch_phase : (latch s).phase = s.phase := rfl
@[simp] theorem latch_bare : (latch s).bare = s.bare := rfl
@[simp] theorem latch_bitidx : (latch s).bitidx = s.bitidx := rfl
@[simp] theorem latch_frameHi : (latch s).frameHi = s.frameHi := rfl
@[simp] theorem latch_frameLo : (latch s).frameLo = s.frameLo := rfl
@[simp] theorem latch_data : (latch s).data = s.data := rfl
@[simp] theorem latch_elapsed : (latch s).elapsed = s.elapsed := rfl
@[simp] theorem latch_errInfo : (latch s).errInfo = s.errInfo := rfl
@[simp] theorem latch_waitCfg : (latch s).waitCfg = s.waitCfg := rfl
@[simp] theorem latch_hc : (latch s).hc = s.hc := rfl
@[simp] theorem latch_k : (latch s).k = s.k := rfl
@[simp] theorem latch_win : (latch s).win = s.win := rfl
@[simp] theorem latch_wlevel : (latch s).wlevel = s.wlevel := rfl
@[simp] theorem latch_sr : (latch s).sr = s.sr := rfl
@[simp] theorem latch_bitval : (latch s).bitval = s.bitval := rfl
@[simp] theorem latch_sync1 : (latch s).sync1 = s.pins.lineIn := rfl
@[simp] theorem latch_sync2 : (latch s).sync2 = s.sync1 := rfl
@[simp] theorem latch_cyclesPerUsPred : (latch s).cyclesPerUsPred = s.cyclesPerUsPred := rfl
@[simp] theorem latch_pins : (latch s).pins = s.nextPorts := rfl
@[simp] theorem latch_script : (latch s).script = s.script.tail := rfl
@[simp] theorem latch_cycle : (latch s).cycle = s.cycle + 1 := rfl

end

section

variable (s : State)

@[simp] theorem resetRegisters_ie : (resetRegisters s).ie = State.reset.ie := rfl
@[simp] theorem resetRegisters_done : (resetRegisters s).done = State.reset.done := rfl
@[simp] theorem resetRegisters_result : (resetRegisters s).result = State.reset.result := rfl
@[simp] theorem resetRegisters_phase : (resetRegisters s).phase = State.reset.phase := rfl
@[simp] theorem resetRegisters_bare : (resetRegisters s).bare = State.reset.bare := rfl
@[simp] theorem resetRegisters_bitidx : (resetRegisters s).bitidx = State.reset.bitidx := rfl
@[simp] theorem resetRegisters_frameHi : (resetRegisters s).frameHi = State.reset.frameHi := rfl
@[simp] theorem resetRegisters_frameLo : (resetRegisters s).frameLo = State.reset.frameLo := rfl
@[simp] theorem resetRegisters_data : (resetRegisters s).data = State.reset.data := rfl
@[simp] theorem resetRegisters_elapsed : (resetRegisters s).elapsed = State.reset.elapsed := rfl
@[simp] theorem resetRegisters_errInfo : (resetRegisters s).errInfo = State.reset.errInfo := rfl
@[simp] theorem resetRegisters_waitCfg : (resetRegisters s).waitCfg = State.reset.waitCfg := rfl
@[simp] theorem resetRegisters_hc : (resetRegisters s).hc = State.reset.hc := rfl
@[simp] theorem resetRegisters_k : (resetRegisters s).k = State.reset.k := rfl
@[simp] theorem resetRegisters_win : (resetRegisters s).win = State.reset.win := rfl
@[simp] theorem resetRegisters_wlevel : (resetRegisters s).wlevel = State.reset.wlevel := rfl
@[simp] theorem resetRegisters_sr : (resetRegisters s).sr = State.reset.sr := rfl
@[simp] theorem resetRegisters_bitval : (resetRegisters s).bitval = State.reset.bitval := rfl
@[simp] theorem resetRegisters_sync1 : (resetRegisters s).sync1 = State.reset.sync1 := rfl
@[simp] theorem resetRegisters_sync2 : (resetRegisters s).sync2 = State.reset.sync2 := rfl
@[simp] theorem resetRegisters_cyclesPerUsPred : (resetRegisters s).cyclesPerUsPred = s.cyclesPerUsPred := rfl
@[simp] theorem resetRegisters_pins : (resetRegisters s).pins = s.pins := rfl
@[simp] theorem resetRegisters_script : (resetRegisters s).script = s.script := rfl
@[simp] theorem resetRegisters_cycle : (resetRegisters s).cycle = s.cycle := rfl

end

section

variable (s : State)

@[simp] theorem resetEdge_ie : (resetEdge s).ie = State.reset.ie := rfl
@[simp] theorem resetEdge_done : (resetEdge s).done = State.reset.done := rfl
@[simp] theorem resetEdge_result : (resetEdge s).result = State.reset.result := rfl
@[simp] theorem resetEdge_phase : (resetEdge s).phase = State.reset.phase := rfl
@[simp] theorem resetEdge_bare : (resetEdge s).bare = State.reset.bare := rfl
@[simp] theorem resetEdge_bitidx : (resetEdge s).bitidx = State.reset.bitidx := rfl
@[simp] theorem resetEdge_frameHi : (resetEdge s).frameHi = State.reset.frameHi := rfl
@[simp] theorem resetEdge_frameLo : (resetEdge s).frameLo = State.reset.frameLo := rfl
@[simp] theorem resetEdge_data : (resetEdge s).data = State.reset.data := rfl
@[simp] theorem resetEdge_elapsed : (resetEdge s).elapsed = State.reset.elapsed := rfl
@[simp] theorem resetEdge_errInfo : (resetEdge s).errInfo = State.reset.errInfo := rfl
@[simp] theorem resetEdge_waitCfg : (resetEdge s).waitCfg = State.reset.waitCfg := rfl
@[simp] theorem resetEdge_hc : (resetEdge s).hc = State.reset.hc := rfl
@[simp] theorem resetEdge_k : (resetEdge s).k = State.reset.k := rfl
@[simp] theorem resetEdge_win : (resetEdge s).win = State.reset.win := rfl
@[simp] theorem resetEdge_wlevel : (resetEdge s).wlevel = State.reset.wlevel := rfl
@[simp] theorem resetEdge_sr : (resetEdge s).sr = State.reset.sr := rfl
@[simp] theorem resetEdge_bitval : (resetEdge s).bitval = State.reset.bitval := rfl
@[simp] theorem resetEdge_sync1 : (resetEdge s).sync1 = State.reset.sync1 := rfl
@[simp] theorem resetEdge_sync2 : (resetEdge s).sync2 = State.reset.sync2 := rfl
@[simp] theorem resetEdge_cyclesPerUsPred : (resetEdge s).cyclesPerUsPred = s.cyclesPerUsPred := rfl
@[simp] theorem resetEdge_pins : (resetEdge s).pins = s.nextPorts := rfl
@[simp] theorem resetEdge_script : (resetEdge s).script = s.script.tail := rfl
@[simp] theorem resetEdge_cycle : (resetEdge s).cycle = s.cycle + 1 := rfl

end

section

variable (s : State)

@[simp] theorem withoutWrite_ie : (s.withoutWrite).ie = s.ie := rfl
@[simp] theorem withoutWrite_done : (s.withoutWrite).done = s.done := rfl
@[simp] theorem withoutWrite_result : (s.withoutWrite).result = s.result := rfl
@[simp] theorem withoutWrite_phase : (s.withoutWrite).phase = s.phase := rfl
@[simp] theorem withoutWrite_bare : (s.withoutWrite).bare = s.bare := rfl
@[simp] theorem withoutWrite_bitidx : (s.withoutWrite).bitidx = s.bitidx := rfl
@[simp] theorem withoutWrite_frameHi : (s.withoutWrite).frameHi = s.frameHi := rfl
@[simp] theorem withoutWrite_frameLo : (s.withoutWrite).frameLo = s.frameLo := rfl
@[simp] theorem withoutWrite_data : (s.withoutWrite).data = s.data := rfl
@[simp] theorem withoutWrite_elapsed : (s.withoutWrite).elapsed = s.elapsed := rfl
@[simp] theorem withoutWrite_errInfo : (s.withoutWrite).errInfo = s.errInfo := rfl
@[simp] theorem withoutWrite_waitCfg : (s.withoutWrite).waitCfg = s.waitCfg := rfl
@[simp] theorem withoutWrite_hc : (s.withoutWrite).hc = s.hc := rfl
@[simp] theorem withoutWrite_k : (s.withoutWrite).k = s.k := rfl
@[simp] theorem withoutWrite_win : (s.withoutWrite).win = s.win := rfl
@[simp] theorem withoutWrite_wlevel : (s.withoutWrite).wlevel = s.wlevel := rfl
@[simp] theorem withoutWrite_sr : (s.withoutWrite).sr = s.sr := rfl
@[simp] theorem withoutWrite_bitval : (s.withoutWrite).bitval = s.bitval := rfl
@[simp] theorem withoutWrite_sync1 : (s.withoutWrite).sync1 = s.sync1 := rfl
@[simp] theorem withoutWrite_sync2 : (s.withoutWrite).sync2 = s.sync2 := rfl
@[simp] theorem withoutWrite_cyclesPerUsPred : (s.withoutWrite).cyclesPerUsPred = s.cyclesPerUsPred := rfl
@[simp] theorem withoutWrite_pins : (s.withoutWrite).pins = { s.pins with rst := false, busWe := false } := rfl
@[simp] theorem withoutWrite_script : (s.withoutWrite).script = s.script := rfl
@[simp] theorem withoutWrite_cycle : (s.withoutWrite).cycle = s.cycle := rfl

end

end Sys2Proof.Machine
end

