-- ==== Sys2Proof/Laws/Bits.lean ====
section
/-! SUPPORT. The shift register and the words of the register space, as numbers and bit by bit. -/

namespace Sys2Proof.Machine

/-- Concatenation as a number: the left part above the right one (00_scope.md R9). -/
theorem append_toNat {m n : Nat} (x : BitVec m) (y : BitVec n) : (x ++ y).toNat = x.toNat * 2 ^ n + y.toNat := by
  rw [BitVec.toNat_append, ← Nat.shiftLeft_add_eq_or_of_lt y.isLt, Nat.shiftLeft_eq]

/-- A shift in is twice the register plus the bit, in 40 bits (42_frame_reader.md R99). -/
theorem shiftIn_toNat (sr : BitVec 40) (b : Bool) : (shiftIn sr b).toNat = (2 * sr.toNat + b.toNat) % 2 ^ 40 := by
  rw [shiftIn, BitVec.toNat_shiftConcat, Nat.shiftLeft_eq, Nat.mul_comm, pow_one]

theorem shiftIn_getLsbD_zero (sr : BitVec 40) (b : Bool) : (shiftIn sr b).getLsbD 0 = b := by
  simp [shiftIn]

theorem shiftIn_getLsbD_succ (sr : BitVec 40) (b : Bool) {i : Nat} (h : i < 39) :
    (shiftIn sr b).getLsbD (i + 1) = sr.getLsbD i := by
  simp only [shiftIn, BitVec.getLsbD_shiftConcat, Nat.add_sub_cancel, Nat.add_eq_zero_iff, one_ne_zero, and_false,
    if_false]
  simp [show i + 1 < 40 by omega]

/-- The word index of an address is the address without its low two bits (20_memory.md R44). -/
theorem wordIndex_append (idx : BitVec 4) (low : BitVec 2) : wordIndex ((idx ++ low).setWidth 6) = idx := by
  revert idx low
  decide

end Sys2Proof.Machine

namespace Sys2Proof

/-- The low three bits of a command's word are its OP, whatever the ignored bits hold (30_encoding.md R56). -/
theorem encodeWith_op (ignored : BitVec 29) (i : Instr) : (encodeWith ignored i).extractLsb' 0 3 = i.opcode := by
  apply BitVec.eq_of_toNat_eq
  have := i.opcode.isLt
  have := ignored.isLt
  simp only [encodeWith, BitVec.extractLsb'_toNat, BitVec.toNat_setWidth, Machine.append_toNat, Nat.shiftRight_zero]
  omega

/-- A word is put together again from its four bytes (log entry 10). -/
theorem wordOfBytes_bytes (v : Word) :
    wordOfBytes (v.extractLsb' 0 8) (v.extractLsb' 8 8) (v.extractLsb' 16 8) (v.extractLsb' 24 8) = v := by
  apply BitVec.eq_of_toNat_eq
  have := v.isLt
  simp only [wordOfBytes, BitVec.toNat_setWidth, Machine.append_toNat, BitVec.extractLsb'_toNat,
    Nat.shiftRight_eq_div_pow]
  omega

end Sys2Proof
end

