-- ==== Sys2Proof/Laws/Codes.lean ====
section
/-! SUPPORT. The kind of each phase and RESULT code, and that codes determine their names. -/

namespace Sys2Proof.Machine

@[simp] theorem taken_idle : Phase.taken .idle = true := rfl
@[simp] theorem isWait_idle : Phase.isWait .idle = false := rfl
@[simp] theorem isDrive_idle : Phase.isDrive .idle = false := rfl
@[simp] theorem isFrame_idle : Phase.isFrame .idle = false := rfl
@[simp] theorem isReading_idle : Phase.isReading .idle = false := rfl
@[simp] theorem taken_hsIdleHigh : Phase.taken .hsIdleHigh = true := rfl
@[simp] theorem isWait_hsIdleHigh : Phase.isWait .hsIdleHigh = false := rfl
@[simp] theorem isDrive_hsIdleHigh : Phase.isDrive .hsIdleHigh = true := rfl
@[simp] theorem isFrame_hsIdleHigh : Phase.isFrame .hsIdleHigh = false := rfl
@[simp] theorem isReading_hsIdleHigh : Phase.isReading .hsIdleHigh = true := rfl
@[simp] theorem taken_hsStartLow : Phase.taken .hsStartLow = true := rfl
@[simp] theorem isWait_hsStartLow : Phase.isWait .hsStartLow = false := rfl
@[simp] theorem isDrive_hsStartLow : Phase.isDrive .hsStartLow = true := rfl
@[simp] theorem isFrame_hsStartLow : Phase.isFrame .hsStartLow = false := rfl
@[simp] theorem isReading_hsStartLow : Phase.isReading .hsStartLow = true := rfl
@[simp] theorem taken_hsRelease : Phase.taken .hsRelease = true := rfl
@[simp] theorem isWait_hsRelease : Phase.isWait .hsRelease = false := rfl
@[simp] theorem isDrive_hsRelease : Phase.isDrive .hsRelease = true := rfl
@[simp] theorem isFrame_hsRelease : Phase.isFrame .hsRelease = false := rfl
@[simp] theorem isReading_hsRelease : Phase.isReading .hsRelease = true := rfl
@[simp] theorem taken_hsAwaitSensorHigh : Phase.taken .hsAwaitSensorHigh = true := rfl
@[simp] theorem isWait_hsAwaitSensorHigh : Phase.isWait .hsAwaitSensorHigh = true := rfl
@[simp] theorem isDrive_hsAwaitSensorHigh : Phase.isDrive .hsAwaitSensorHigh = false := rfl
@[simp] theorem isFrame_hsAwaitSensorHigh : Phase.isFrame .hsAwaitSensorHigh = false := rfl
@[simp] theorem isReading_hsAwaitSensorHigh : Phase.isReading .hsAwaitSensorHigh = true := rfl
@[simp] theorem taken_hsAwaitAckLow : Phase.taken .hsAwaitAckLow = true := rfl
@[simp] theorem isWait_hsAwaitAckLow : Phase.isWait .hsAwaitAckLow = true := rfl
@[simp] theorem isDrive_hsAwaitAckLow : Phase.isDrive .hsAwaitAckLow = false := rfl
@[simp] theorem isFrame_hsAwaitAckLow : Phase.isFrame .hsAwaitAckLow = false := rfl
@[simp] theorem isReading_hsAwaitAckLow : Phase.isReading .hsAwaitAckLow = true := rfl
@[simp] theorem taken_hsAwaitAckHigh : Phase.taken .hsAwaitAckHigh = true := rfl
@[simp] theorem isWait_hsAwaitAckHigh : Phase.isWait .hsAwaitAckHigh = true := rfl
@[simp] theorem isDrive_hsAwaitAckHigh : Phase.isDrive .hsAwaitAckHigh = false := rfl
@[simp] theorem isFrame_hsAwaitAckHigh : Phase.isFrame .hsAwaitAckHigh = false := rfl
@[simp] theorem isReading_hsAwaitAckHigh : Phase.isReading .hsAwaitAckHigh = true := rfl
@[simp] theorem taken_hsAwaitStartLow : Phase.taken .hsAwaitStartLow = true := rfl
@[simp] theorem isWait_hsAwaitStartLow : Phase.isWait .hsAwaitStartLow = true := rfl
@[simp] theorem isDrive_hsAwaitStartLow : Phase.isDrive .hsAwaitStartLow = false := rfl
@[simp] theorem isFrame_hsAwaitStartLow : Phase.isFrame .hsAwaitStartLow = false := rfl
@[simp] theorem isReading_hsAwaitStartLow : Phase.isReading .hsAwaitStartLow = true := rfl
@[simp] theorem taken_hsAwaitStartHigh : Phase.taken .hsAwaitStartHigh = true := rfl
@[simp] theorem isWait_hsAwaitStartHigh : Phase.isWait .hsAwaitStartHigh = true := rfl
@[simp] theorem isDrive_hsAwaitStartHigh : Phase.isDrive .hsAwaitStartHigh = false := rfl
@[simp] theorem isFrame_hsAwaitStartHigh : Phase.isFrame .hsAwaitStartHigh = false := rfl
@[simp] theorem isReading_hsAwaitStartHigh : Phase.isReading .hsAwaitStartHigh = true := rfl
@[simp] theorem taken_frWaitLow : Phase.taken .frWaitLow = true := rfl
@[simp] theorem isWait_frWaitLow : Phase.isWait .frWaitLow = true := rfl
@[simp] theorem isDrive_frWaitLow : Phase.isDrive .frWaitLow = false := rfl
@[simp] theorem isFrame_frWaitLow : Phase.isFrame .frWaitLow = true := rfl
@[simp] theorem isReading_frWaitLow : Phase.isReading .frWaitLow = true := rfl
@[simp] theorem taken_frWaitHigh : Phase.taken .frWaitHigh = true := rfl
@[simp] theorem isWait_frWaitHigh : Phase.isWait .frWaitHigh = true := rfl
@[simp] theorem isDrive_frWaitHigh : Phase.isDrive .frWaitHigh = false := rfl
@[simp] theorem isFrame_frWaitHigh : Phase.isFrame .frWaitHigh = true := rfl
@[simp] theorem isReading_frWaitHigh : Phase.isReading .frWaitHigh = true := rfl
@[simp] theorem taken_validate : Phase.taken .validate = true := rfl
@[simp] theorem isWait_validate : Phase.isWait .validate = false := rfl
@[simp] theorem isDrive_validate : Phase.isDrive .validate = false := rfl
@[simp] theorem isFrame_validate : Phase.isFrame .validate = false := rfl
@[simp] theorem isReading_validate : Phase.isReading .validate = false := rfl
@[simp] theorem taken_waitCmd : Phase.taken .waitCmd = true := rfl
@[simp] theorem isWait_waitCmd : Phase.isWait .waitCmd = true := rfl
@[simp] theorem isDrive_waitCmd : Phase.isDrive .waitCmd = false := rfl
@[simp] theorem isFrame_waitCmd : Phase.isFrame .waitCmd = false := rfl
@[simp] theorem isReading_waitCmd : Phase.isReading .waitCmd = false := rfl
@[simp] theorem taken_unused13 : Phase.taken .unused13 = false := rfl
@[simp] theorem isWait_unused13 : Phase.isWait .unused13 = false := rfl
@[simp] theorem isDrive_unused13 : Phase.isDrive .unused13 = false := rfl
@[simp] theorem isFrame_unused13 : Phase.isFrame .unused13 = false := rfl
@[simp] theorem isReading_unused13 : Phase.isReading .unused13 = false := rfl
@[simp] theorem taken_unused14 : Phase.taken .unused14 = false := rfl
@[simp] theorem isWait_unused14 : Phase.isWait .unused14 = false := rfl
@[simp] theorem isDrive_unused14 : Phase.isDrive .unused14 = false := rfl
@[simp] theorem isFrame_unused14 : Phase.isFrame .unused14 = false := rfl
@[simp] theorem isReading_unused14 : Phase.isReading .unused14 = false := rfl
@[simp] theorem taken_unused15 : Phase.taken .unused15 = false := rfl
@[simp] theorem isWait_unused15 : Phase.isWait .unused15 = false := rfl
@[simp] theorem isDrive_unused15 : Phase.isDrive .unused15 = false := rfl
@[simp] theorem isFrame_unused15 : Phase.isFrame .unused15 = false := rfl
@[simp] theorem isReading_unused15 : Phase.isReading .unused15 = false := rfl
@[simp] theorem produced_none : Result.produced .none = true := rfl
@[simp] theorem produced_ok : Result.produced .ok = true := rfl
@[simp] theorem produced_timeout : Result.produced .timeout = true := rfl
@[simp] theorem produced_checksumMismatch : Result.produced .checksumMismatch = true := rfl
@[simp] theorem produced_humidityOutOfRange : Result.produced .humidityOutOfRange = true := rfl
@[simp] theorem produced_temperatureOutOfRange : Result.produced .temperatureOutOfRange = true := rfl
@[simp] theorem produced_unused6 : Result.produced .unused6 = false := rfl
@[simp] theorem produced_unused7 : Result.produced .unused7 = false := rfl

/-- No two phases share a code (30_encoding.md R63). -/
theorem phase_code_injective {p q : Phase} (h : p.code = q.code) : p = q := by
  cases p <;> cases q <;> first | rfl | (revert h; decide)

/-- No two results share a code (30_encoding.md R62). -/
theorem result_code_injective {p q : Result} (h : p.code = q.code) : p = q := by
  cases p <;> cases q <;> first | rfl | (revert h; decide)

end Sys2Proof.Machine
end

