-- ==== Sys2Proof/Laws/TransitionWaiter.lean ====
section
/-! SUPPORT. What one edge of a wait can do, and its arithmetic. -/

namespace Sys2Proof.Machine

/-- CYCLES_PER_US is 1 to 65535 in every state (00_scope.md R5). -/
theorem cyclesPerUs_bounds (s : State) : 1 ≤ s.cyclesPerUs ∧ s.cyclesPerUs ≤ 65535 := by
  have := s.cyclesPerUsPred.isLt
  unfold State.cyclesPerUs
  omega

/-- No timeout or hold reaches 2^32 (00_scope.md R8). -/
theorem usToCycles_lt {c : Nat} (hc : c ≤ 65535) (us : BitVec 16) : usToCycles c us < 2 ^ 32 := by
  have h : us.toNat * c ≤ 65535 * 65535 := Nat.mul_le_mul (by have := us.isLt; omega) hc
  unfold usToCycles
  omega

theorem twOutcome_timeout_iff {c : Nat} {w : Wait} {k : Word} {win : BitVec 3} {x : Level} :
    twOutcome c w k win x = .timeout ↔ usToCycles c w.timeoutUs ≤ k.toNat + 1 := by
  unfold twOutcome
  split_ifs <;> simp_all

theorem twOutcome_success_iff {c : Nat} {w : Wait} {k e : Word} {win : BitVec 3} {x : Level} :
    twOutcome c w k win x = .success e ↔
      k.toNat + 1 < usToCycles c w.timeoutUs ∧ 3 ≤ k.toNat + 1 ∧ shiftWindow win x = fullWindow w.level ∧
        e = BitVec.ofNat 32 (k.toNat + 1) := by
  unfold twOutcome
  split_ifs with h h' <;> simp only [WaitOutcome.success.injEq, false_iff] <;> grind

theorem twOutcome_running_iff {c : Nat} {w : Wait} {k k' : Word} {win win' : BitVec 3} {x : Level} :
    twOutcome c w k win x = .running k' win' ↔
      k.toNat + 1 < usToCycles c w.timeoutUs ∧ ¬ (3 ≤ k.toNat + 1 ∧ shiftWindow win x = fullWindow w.level) ∧
        k' = BitVec.ofNat 32 (k.toNat + 1) ∧ win' = shiftWindow win x := by
  unfold twOutcome
  split_ifs with h h' <;> simp only [WaitOutcome.running.injEq, false_iff] <;> grind

/-- A count below a timeout survives its 32-bit register (00_scope.md R8). -/
theorem toNat_count {c n : Nat} (hc : c ≤ 65535) {us : BitVec 16} (h : n < usToCycles c us) :
    (BitVec.ofNat 32 n).toNat = n := by
  have := usToCycles_lt hc us
  simp only [BitVec.toNat_ofNat]
  omega

/-- The newest sample is bit 0 of the window, the older ones move up (40_transition_waiter.md R71). -/
theorem shiftWindow_toNat (win : BitVec 3) (x : Level) :
    (shiftWindow win x).toNat = (2 * win.toNat + (levelBit x).toNat) % 8 := by
  cases x <;> revert win <;> decide

/-- The window matches exactly if the last three samples do, whatever it held before them (40_transition_waiter.md R69). -/
theorem shiftWindow_three (win : BitVec 3) (a b c l : Level) :
    shiftWindow (shiftWindow (shiftWindow win a) b) c = fullWindow l ↔ a = l ∧ b = l ∧ c = l := by
  cases a <;> cases b <;> cases c <;> cases l <;> revert win <;> decide

end Sys2Proof.Machine
end

