-- ==== Sys2Proof/Laws/Control.lean ====
section
/-! SUPPORT. What the control part of an edge can do and what it never touches. -/

namespace Sys2Proof.Machine

/-- In IDLE the control part changes nothing (44_control.md R117). -/
theorem control_of_idle {s : State} (h : s.phase = .idle) : controlStep s = (s, false) := by
  simp [controlStep, h]

/-- The drive phases run the hold step (41_handshake.md R81). -/
theorem control_of_drive {s : State} (h : s.phase.isDrive = true) :
    controlStep s = ((if s.hc.toNat + 1 = s.holdCycles then
        (match s.phase with
          | .hsIdleHigh => enterDrive .hsStartLow { s with hc := 0 }
          | .hsStartLow => enterDrive .hsRelease { s with hc := 0 }
          | _ => startWait .hsAwaitSensorHigh { s with hc := 0 })
      else { s with hc := s.hc + 1 }), false) := by
  cases hp : s.phase <;> simp_all [controlStep, idleHighStep, startLowStep, releaseStep, holdStep]

/-- The edge that leaves VALIDATE (43_validator.md R113). -/
theorem control_of_validate {s : State} (h : s.phase = .validate) :
    controlStep s = (recordVerdict s.verdict s, true) := by
  simp [controlStep, h, validateStep]

/-- What the phase's own rule does at a wait's success (44_control.md R117). -/
def successStep (s : State) : Word → State → Controlled :=
  match s.phase with
  | .hsAwaitSensorHigh => thenWait .hsAwaitAckLow
  | .hsAwaitAckLow => thenWait .hsAwaitAckHigh
  | .hsAwaitAckHigh => ackHighDone
  | .hsAwaitStartLow => thenWait .hsAwaitStartHigh
  | .hsAwaitStartHigh => thenWait .frWaitLow
  | .frWaitLow => bitLowDone
  | .frWaitHigh => bitHighDone
  | _ => waitCmdDone

/-- A phase has wait parameters exactly if it is a wait (40_transition_waiter.md R66). -/
theorem wait_isSome (s : State) : s.wait.isSome = s.phase.isWait := by
  cases hp : s.phase <;> simp [State.wait, hp]

/-- A wait phase runs TWStep with its own rule for success (44_control.md R117). -/
theorem control_of_wait {s : State} {w : Wait} (h : s.wait = some w) :
    controlStep s = twStep w (successStep s) s := by
  have hw : s.phase.isWait = true := by rw [← wait_isSome, h]; rfl
  cases hp : s.phase <;> simp_all [controlStep, waitStep, successStep]

theorem control_of_timeout {s : State} {w : Wait} (h : s.wait = some w) (ho : s.waitOutcome w = .timeout) :
    controlStep s = (raiseTimeout w.level s.phase s.bitidx w.timeoutUs s, true) := by
  rw [control_of_wait h, twStep]
  simp only [State.waitOutcome] at ho
  rw [ho]

theorem control_of_success {s : State} {w : Wait} {e : Word} (h : s.wait = some w)
    (ho : s.waitOutcome w = .success e) :
    controlStep s = successStep s e { s with elapsed := e } := by
  rw [control_of_wait h, twStep]
  simp only [State.waitOutcome] at ho
  rw [ho]

theorem control_of_running {s : State} {w : Wait} {k : Word} {win : BitVec 3} (h : s.wait = some w)
    (ho : s.waitOutcome w = .running k win) :
    controlStep s = ({ s with k := k, win := win }, false) := by
  rw [control_of_wait h, twStep]
  simp only [State.waitOutcome] at ho
  rw [ho]

/-- A phase that may run is one of five kinds. -/
theorem phase_kinds {s : State} (h : s.phase.taken = true) :
    s.phase = .idle ∨ s.phase.isDrive = true ∨ (∃ w, s.wait = some w) ∨ s.phase = .validate := by
  cases hp : s.phase <;> simp_all [State.wait]

/-- Fields that only the host, the synchronizer, an accept or the inputs change: the control part leaves them. -/
structure ControlFrame (s t : State) : Prop where
  ie : t.ie = s.ie
  waitCfg : t.waitCfg = s.waitCfg
  wlevel : t.wlevel = s.wlevel
  bare : t.bare = s.bare
  sync1 : t.sync1 = s.sync1
  sync2 : t.sync2 = s.sync2
  rate : t.cyclesPerUsPred = s.cyclesPerUsPred
  pins : t.pins = s.pins
  script : t.script = s.script
  cycle : t.cycle = s.cycle

theorem recordVerdict_frame (v : Verdict) (s : State) : ControlFrame s (recordVerdict v s) := by
  cases v <;> constructor <;> rfl

theorem successStep_frame (s t : State) (e : Word) : ControlFrame t (successStep s e t).1 := by
  unfold successStep
  cases s.phase <;> simp only [thenWait, ackHighDone, bitLowDone, bitHighDone, waitCmdDone] <;> (try split_ifs) <;>
    constructor <;> rfl

/-- The control part never changes CTRL, WAIT_CFG, `wlevel`, `bare`, the synchronizer or the inputs. -/
theorem control_frame (s : State) : ControlFrame s (controlStep s).1 := by
  by_cases ht : s.phase.taken = true
  · obtain h | h | ⟨w, h⟩ | h := phase_kinds ht
    · rw [control_of_idle h]; constructor <;> rfl
    · rw [control_of_drive h]
      cases s.phase <;> simp only <;> split_ifs <;> constructor <;> rfl
    · cases ho : s.waitOutcome w with
      | timeout => rw [control_of_timeout h ho]; constructor <;> rfl
      | running k win => rw [control_of_running h ho]; constructor <;> rfl
      | success e =>
        rw [control_of_success h ho]
        obtain ⟨h1, h2, h3, h4, h5, h6, h7, h8, h9, h10⟩ := successStep_frame s { s with elapsed := e } e
        exact ⟨h1, h2, h3, h4, h5, h6, h7, h8, h9, h10⟩
    · rw [control_of_validate h]; exact recordVerdict_frame _ _
  · cases hp : s.phase <;> simp_all [controlStep] <;> constructor <;> rfl

end Sys2Proof.Machine
end

