-- ==== Sys2Proof/Laws/Step.lean ====
section
/-! SUPPORT. What an edge can do, and how runs and the inputs ahead move with it. -/

namespace Sys2Proof.Machine

theorem codeFault_eq_none_iff {s : State} : s.codeFault = none ↔ s.Legal := by
  unfold State.codeFault State.Legal
  cases s.phase.taken <;> cases s.result.produced <;> simp

/-- An edge ends in its next state exactly if no code that is never taken is held. -/
theorem finish_eq_next_iff {s t u : State} : finish s t = .next u ↔ s.Legal ∧ u = t := by
  unfold finish
  rw [← codeFault_eq_none_iff]
  cases s.codeFault <;> simp [eq_comm]

theorem finish_of_legal {s : State} (h : s.Legal) (t : State) : finish s t = .next t :=
  finish_eq_next_iff.mpr ⟨h, rfl⟩

/-- What accepting a command does to an idle block; nothing for NOP and the reserved opcodes (44_control.md R118). -/
def acceptOf : Instr → State → State
  | .nop => fun s => s
  | .read => acceptAttempt false
  | .readBare => acceptAttempt true
  | .validate => acceptValidate
  | .waitLow => acceptWait .low
  | .waitHigh => acceptWait .high
  | .reserved6 => fun s => s
  | .reserved7 => fun s => s

/-- Every command is a command edge with its own accept. -/
theorem exec_eq (i : Instr) (s : State) : exec i s = commandEdge (acceptOf i) s := by
  cases i <;> rfl

/-- The state after an edge without `rst`, whatever the host writes. -/
def edgeState (s : State) : State :=
  match s.commandWord with
  | some v => commandEdgeState (acceptOf (decodeWord v)) s
  | none => busEdgeState s

theorem step_of_rst {s : State} (h : s.pins.rst = true) : step s = .next (resetEdge s) := by
  simp [step, h]

/-- Without `rst`, an edge is `edgeState` or a fault. -/
theorem step_of_noRst {s : State} (h : s.pins.rst = false) : step s = finish s (edgeState s) := by
  unfold step edgeState
  rw [h]
  cases s.commandWord with
  | none => rfl
  | some v => exact exec_eq _ _

/-- All an edge can lead to. -/
theorem step_eq_next_iff {s t : State} :
    step s = .next t ↔
      (s.pins.rst = true ∧ t = resetEdge s) ∨ (s.pins.rst = false ∧ s.Legal ∧ t = edgeState s) := by
  cases h : s.pins.rst with
  | true => simp [step_of_rst h, eq_comm]
  | false => simp [step_of_noRst h, finish_eq_next_iff]

/-- The state after an edge without `rst`, before the synchronizer and the inputs move. -/
def edgeCore (s : State) : State :=
  match s.commandWord with
  | some v => if s.phase = .idle then acceptOf (decodeWord v) s else (controlStep s).1
  | none => hostWrite s (controlStep s).2 (controlStep s).1

theorem edgeState_eq (s : State) : edgeState s = latch (edgeCore s) := by
  unfold edgeState edgeCore commandEdgeState busEdgeState
  cases s.commandWord with
  | none => rfl
  | some v => simp only; split_ifs <;> rfl

theorem acceptOf_inputs (i : Instr) (s : State) :
    (acceptOf i s).sync1 = s.sync1 ∧ (acceptOf i s).pins = s.pins ∧ (acceptOf i s).script = s.script ∧
      (acceptOf i s).cycle = s.cycle ∧ (acceptOf i s).cyclesPerUsPred = s.cyclesPerUsPred := by
  cases i <;> exact ⟨rfl, rfl, rfl, rfl, rfl⟩

theorem hostWrite_inputs (s c : State) (b : Bool) :
    (hostWrite s b c).sync1 = c.sync1 ∧ (hostWrite s b c).pins = c.pins ∧ (hostWrite s b c).script = c.script ∧
      (hostWrite s b c).cycle = c.cycle ∧ (hostWrite s b c).cyclesPerUsPred = c.cyclesPerUsPred := by
  unfold hostWrite
  repeat' split
  all_goals exact ⟨rfl, rfl, rfl, rfl, rfl⟩

theorem edgeCore_inputs (s : State) :
    (edgeCore s).sync1 = s.sync1 ∧ (edgeCore s).pins = s.pins ∧ (edgeCore s).script = s.script ∧
      (edgeCore s).cycle = s.cycle ∧ (edgeCore s).cyclesPerUsPred = s.cyclesPerUsPred := by
  have hc := control_frame s
  unfold edgeCore
  split
  · split_ifs
    · exact acceptOf_inputs _ _
    · exact ⟨hc.sync1, hc.pins, hc.script, hc.cycle, hc.rate⟩
  · obtain ⟨h1, h2, h3, h4, h5⟩ := hostWrite_inputs s (controlStep s).1 (controlStep s).2
    exact ⟨h1.trans hc.sync1, h2.trans hc.pins, h3.trans hc.script, h4.trans hc.cycle, h5.trans hc.rate⟩

/-- The ports of the next cycle are the ports one cycle ahead. -/
theorem nextPorts_eq (s : State) : s.nextPorts = s.portsAt 1 := by
  cases h : s.script <;> simp [State.nextPorts, State.portsAt, h]

theorem nextPorts_congr {s t : State} (h : t.script = s.script) (h' : t.cycle = s.cycle) :
    t.nextPorts = s.nextPorts := by
  simp only [State.nextPorts, h, h']

/-- Every edge without `rst` moves the synchronizer and the inputs (44_control.md R117). -/
theorem edgeState_inputs (s : State) : s.InputsAdvance (edgeState s) := by
  obtain ⟨h1, h2, h3, h4, h5⟩ := edgeCore_inputs s
  rw [edgeState_eq]
  constructor
  · simp [h2]
  · simp [h1]
  · rw [latch_pins, nextPorts_congr h3 h4, nextPorts_eq]
  · simp [h3]
  · simp [h4]
  · simp [h5]

/-- Whatever an edge does, the inputs move one cycle on and the parameter stays. -/
theorem step_inputs {s t : State} (h : step s = .next t) :
    t.pins = s.portsAt 1 ∧ t.script = s.script.tail ∧ t.cycle = s.cycle + 1 ∧
      t.cyclesPerUsPred = s.cyclesPerUsPred := by
  obtain ⟨-, rfl⟩ | ⟨-, -, rfl⟩ := step_eq_next_iff.mp h
  · exact ⟨nextPorts_eq s, rfl, rfl, rfl⟩
  · have := edgeState_inputs s
    exact ⟨this.pins, this.script, this.cycle, this.rate⟩

/-- The ports ahead of the next state are those ahead of this one, a cycle later. -/
theorem portsAt_step {s t : State} (h : step s = .next t) (j : Nat) : t.portsAt j = s.portsAt (j + 1) := by
  obtain ⟨h1, h2, h3, -⟩ := step_inputs h
  cases j with
  | zero => exact h1
  | succ j => simp [State.portsAt, h2, h3, Nat.add_assoc, Nat.add_comm 1 j]

theorem noReset_step {s t : State} {n : Nat} (h : step s = .next t) (hr : s.NoReset (n + 1)) : t.NoReset n :=
  fun j hj => portsAt_step h j ▸ hr (j + 1) (by omega)

theorem noReset_mono {s : State} {m n : Nat} (h : m ≤ n) (hr : s.NoReset n) : s.NoReset m :=
  fun j hj => hr j (by omega)

theorem rst_of_noReset {s : State} {n : Nat} (hr : s.NoReset (n + 1)) : s.pins.rst = false :=
  hr 0 (by omega)

/-- Without `rst`, the samples ahead move one edge on. -/
theorem sampleAt_step {s t : State} (h : step s = .next t) (hr : s.pins.rst = false) (j : Nat) :
    t.sampleAt j = s.sampleAt (j + 1) := by
  obtain ⟨hr', -⟩ | ⟨-, -, rfl⟩ := step_eq_next_iff.mp h
  · simp [hr] at hr'
  · have hi := edgeState_inputs s
    match j with
    | 0 => exact hi.sync2
    | 1 => exact hi.sync1
    | j + 2 => exact congrArg Ports.lineIn (portsAt_step h j)

@[simp] theorem runSteps_zero (s : State) : runSteps 0 s = .next s := rfl

theorem runSteps_succ {s t : State} {n : Nat} (h : step s = .next t) : runSteps (n + 1) s = runSteps n t := by
  simp [runSteps, h]

/-- A run of `m + n` edges is a run of `m`, then one of `n`. -/
theorem runSteps_add {s t : State} {m n : Nat} (h : runSteps m s = .next t) :
    runSteps (m + n) s = runSteps n t := by
  induction m generalizing s with
  | zero => simp only [runSteps, Host.Outcome.next.injEq] at h; simp [h]
  | succ m ih =>
    rw [Nat.succ_add]
    cases hs : step s with
    | next u => rw [runSteps_succ hs] at h ⊢; exact ih h
    | fault f => simp [runSteps, hs] at h
    | refused r => simp [runSteps, hs] at h

/-- A run of `n + 1` edges is a run of `n`, then an edge. -/
theorem runSteps_snoc {s t : State} {n : Nat} (h : runSteps n s = .next t) : runSteps (n + 1) s = step t := by
  rw [runSteps_add h]
  cases hs : step t <;> simp [runSteps, hs]

/-- A run that ends in a next state begins with an edge that does. -/
theorem runSteps_succ_eq_next {s t : State} {n : Nat} (h : runSteps (n + 1) s = .next t) :
    ∃ u, step s = .next u ∧ runSteps n u = .next t := by
  cases hs : step s with
  | next u => exact ⟨u, rfl, runSteps_succ hs ▸ h⟩
  | fault f => simp [runSteps, hs] at h
  | refused r => simp [runSteps, hs] at h

/-- The ports ahead after a run of `n` edges are those `n` cycles further ahead. -/
theorem portsAt_run {s t : State} {n : Nat} (h : runSteps n s = .next t) (j : Nat) :
    t.portsAt j = s.portsAt (n + j) := by
  induction n generalizing s with
  | zero =>
    obtain rfl : s = t := by simpa using h
    rw [Nat.zero_add]
  | succ n ih =>
    obtain ⟨u, hu, h⟩ := runSteps_succ_eq_next h
    rw [ih h, portsAt_step hu, Nat.add_right_comm]

/-- Without a reset, the samples ahead after a run of `n` edges are those `n` edges further ahead. -/
theorem sampleAt_run {s t : State} {n : Nat} (h : runSteps n s = .next t) (hr : s.NoReset n) (j : Nat) :
    t.sampleAt j = s.sampleAt (n + j) := by
  induction n generalizing s with
  | zero =>
    obtain rfl : s = t := by simpa using h
    rw [Nat.zero_add]
  | succ n ih =>
    obtain ⟨u, hu, h⟩ := runSteps_succ_eq_next h
    rw [ih h (noReset_step hu hr), sampleAt_step hu (rst_of_noReset hr), Nat.add_right_comm]

theorem noReset_run {s t : State} {m n : Nat} (h : runSteps m s = .next t) (hr : s.NoReset (m + n)) : t.NoReset n :=
  fun j hj => portsAt_run h j ▸ hr (m + j) (by omega)

end Sys2Proof.Machine
end

