-- ==== Sys2Proof/Laws/Edge.lean ====
section
/-! SUPPORT. The edge of a busy block, the edge of an idle block, and when the control part completes a command. -/

namespace Sys2Proof.Machine

theorem levelBit_injective {a b : Level} (h : levelBit a = levelBit b) : a = b := by
  cases a <;> cases b <;> first | rfl | (revert h; decide)

theorem recordVerdict_phase (v : Verdict) (s : State) :
    (recordVerdict v s).phase = .idle ∧ (recordVerdict v s).done = true := by
  cases v <;> exact ⟨rfl, rfl⟩

/-- A success goes to the table's phase and completes a command exactly in WAIT_CMD (44_control.md R122). -/
theorem successStep_spec {s : State} (h : s.phase.isWait = true) (e : Word) :
    (successStep s e { s with elapsed := e }).1.phase = s.successPhase ∧
      ((successStep s e { s with elapsed := e }).2 = true ↔ s.phase = .waitCmd) := by
  cases hp : s.phase <;> simp_all only [Phase.isWait, successStep, State.successPhase, thenWait, ackHighDone,
    bitLowDone, bitHighDone, waitCmdDone] <;> (try split_ifs) <;> simp_all [Phase.code]

/-- The phase of the next state is the table's (44_control.md R122). -/
theorem control_phase_of_wait {s : State} {w : Wait} (h : s.wait = some w) :
    (controlStep s).1.phase =
      match s.waitOutcome w with
      | .running _ _ => s.phase
      | .success _ => s.successPhase
      | .timeout => .idle := by
  have hw : s.phase.isWait = true := by rw [← wait_isSome, h]; rfl
  cases ho : s.waitOutcome w with
  | running k win => rw [control_of_running h ho]
  | success e => rw [control_of_success h ho]; exact (successStep_spec hw e).1
  | timeout => rw [control_of_timeout h ho]; rfl

theorem successPhase_ne_idle {s : State} (h : s.phase ≠ .idle) (h' : s.phase ≠ .waitCmd) : s.successPhase ≠ .idle := by
  cases hp : s.phase <;> simp_all [State.successPhase] <;> split_ifs <;> simp

/-- The control part completes a command exactly if it takes a busy block to IDLE (44_control.md R120). -/
theorem control_done_iff (s : State) :
    (controlStep s).2 = true ↔ s.phase ≠ .idle ∧ (controlStep s).1.phase = .idle := by
  by_cases ht : s.phase.taken = true
  · obtain h | h | ⟨w, h⟩ | h := phase_kinds ht
    · simp [control_of_idle h, h]
    · rw [control_of_drive h]
      cases hp : s.phase <;> simp_all <;> split_ifs <;> simp_all
    · have hw : s.phase.isWait = true := by rw [← wait_isSome, h]; rfl
      have hi : s.phase ≠ .idle := by intro hp; simp [hp] at hw
      cases ho : s.waitOutcome w with
      | running k win => simp [control_of_running h ho]
      | timeout => simp [control_of_timeout h ho, hi]
      | success e =>
        have hs := successStep_spec hw e
        rw [control_of_success h ho, hs.2, hs.1]
        constructor
        · intro hp; exact ⟨hi, by simp [State.successPhase, hp]⟩
        · intro hp
          by_contra hc
          exact successPhase_ne_idle hi hc hp.2
    · have := (recordVerdict_phase s.verdict s).1
      simp [control_of_validate h, h, this]
  · cases hp : s.phase <;> simp_all [controlStep]

/-- A completion sets DONE (44_control.md R120). -/
theorem control_done_of_complete {s : State} (h : (controlStep s).2 = true) : (controlStep s).1.done = true := by
  by_cases ht : s.phase.taken = true
  · obtain hp | hp | ⟨w, hp⟩ | hp := phase_kinds ht
    · simp [control_of_idle hp] at h
    · simp [control_of_drive hp] at h
    · cases ho : s.waitOutcome w with
      | running k win => simp [control_of_running hp ho] at h
      | timeout => simp [control_of_timeout hp ho]
      | success e =>
        have hw : s.phase.isWait = true := by rw [← wait_isSome, hp]; rfl
        rw [control_of_success hp ho, (successStep_spec hw e).2] at h
        rw [control_of_success hp ho]
        simp [successStep, h, waitCmdDone]
    · rw [control_of_validate hp]; exact (recordVerdict_phase s.verdict s).2
  · cases hp : s.phase <;> simp_all [controlStep]

/-- What the control part leaves unless it completes a command. -/
theorem control_keeps_result {s : State} (h : (controlStep s).2 = false) :
    (controlStep s).1.done = s.done ∧ (controlStep s).1.result = s.result ∧ (controlStep s).1.errInfo = s.errInfo ∧
      (controlStep s).1.data = s.data := by
  by_cases ht : s.phase.taken = true
  · obtain hp | hp | ⟨w, hp⟩ | hp := phase_kinds ht
    · simp [control_of_idle hp]
    · rw [control_of_drive hp]
      cases s.phase <;> simp only <;> split_ifs <;> exact ⟨rfl, rfl, rfl, rfl⟩
    · cases ho : s.waitOutcome w with
      | running k win => simp [control_of_running hp ho]
      | timeout => simp [control_of_timeout hp ho] at h
      | success e =>
        rw [control_of_success hp ho] at h ⊢
        unfold successStep at h ⊢
        cases hq : s.phase <;> simp only [hq, thenWait, ackHighDone, bitLowDone, bitHighDone, waitCmdDone] at h ⊢ <;>
          (try split_ifs at h ⊢) <;> first | exact ⟨rfl, rfl, rfl, rfl⟩ | simp at h
    · simp [control_of_validate hp] at h
  · cases hp : s.phase <;> simp_all [controlStep]

/-- DONE after a busy edge: a completion sets it, else the host may clear it (44_control.md R121). -/
theorem edgeCore_busy {s : State} (h : s.phase ≠ .idle) :
    edgeCore s =
      { (controlStep s).1 with
        ie := s.ieAfter
        done := if (controlStep s).2 then true else s.doneAfter } := by
  have hf := control_frame s
  have hdone : (controlStep s).1.done = if (controlStep s).2 then true else s.done := by
    cases hc : (controlStep s).2 with
    | true => exact control_done_of_complete hc
    | false => exact (control_keeps_result hc).1
  unfold edgeCore
  cases hcmd : s.commandWord with
  | some v =>
    simp only [State.commandWord] at hcmd
    split_ifs at hcmd with hw
    simp only [Bool.and_eq_true, beq_iff_eq] at hw
    have h1 : s.ieAfter = s.ie := by simp [State.ieAfter, hw]
    have h2 : s.doneAfter = s.done := by simp [State.doneAfter, hw]
    simp only [h, if_false, h1, h2, ← hf.ie, ← hdone]
  | none =>
    simp only [State.commandWord, ite_eq_right_iff, reduceCtorEq, imp_false, Bool.and_eq_true, beq_iff_eq,
      not_and] at hcmd
    simp only [hostWrite, h, if_false, State.ieAfter, State.doneAfter, doneAfterStatusWrite]
    cases hwe : s.pins.busWe with
    | false => simp [← hf.ie, ← hdone]
    | true =>
      have hne := hcmd hwe
      generalize hidx : wordIndex s.pins.busAddr = idx at *
      have key : ∀ j : BitVec 4, j ≠ 1 → j = 0 ∨ j = 2 ∨ j = 3 ∨ j = 4 ∨ j = 8 ∨
          (j.toNat ≠ 0 ∧ j.toNat ≠ 2 ∧ j.toNat ≠ 3 ∧ j.toNat ≠ 4 ∧ j.toNat ≠ 8 ∧ (j == 0) = false ∧ (j == 2) = false) := by
        decide
      obtain rfl | rfl | rfl | rfl | rfl | ⟨h0, h2, h3, h4, h8, h0', h2'⟩ := key idx hne
      · simp [← hdone]
      · cases hs : (controlStep s).2 <;> simp_all [hf.ie]
      · simp [← hf.ie, ← hdone]
      · simp [← hf.ie, ← hdone]
      · simp [← hf.ie, ← hdone]
      · simp only [h0', h2', Bool.and_false, Bool.false_and, if_true, Bool.false_eq_true, if_false, ← hf.ie,
          ← hdone]

/-- A legal edge without `rst` leads to `edgeCore` with the synchronizer and the inputs moved on. -/
theorem step_of_legal {s : State} (hl : s.Legal) (hr : s.pins.rst = false) : step s = .next (latch (edgeCore s)) := by
  rw [step_of_noRst hr, edgeState_eq, finish_of_legal hl]

end Sys2Proof.Machine
end

