-- ==== Sys2Proof/Laws/Bus.lean ====
section
/-! SUPPORT. What a host access can do: the control part does not see it, a cycle without a write leaves only the
control part, an idle block is changed by the write alone. -/

namespace Sys2Proof.Machine

theorem recordVerdict_setPins (v : Verdict) (s : State) (p : Ports) :
    recordVerdict v { s with pins := p } = { recordVerdict v s with pins := p } := by
  cases v <;> rfl

theorem successStep_setPins (s : State) (e : Word) (p : Ports) :
    successStep { s with pins := p } e { s with pins := p, elapsed := e } =
      ({ (successStep s e { s with elapsed := e }).1 with pins := p }, (successStep s e { s with elapsed := e }).2) := by
  cases hp : s.phase <;> simp only [successStep, hp, thenWait, ackHighDone, bitLowDone, bitHighDone, waitCmdDone] <;>
    (try split_ifs) <;> rfl

/-- What the host does in a cycle plays no part in the control part of its edge. -/
theorem control_setPins (s : State) (p : Ports) :
    controlStep { s with pins := p } = ({ (controlStep s).1 with pins := p }, (controlStep s).2) := by
  by_cases ht : s.phase.taken = true
  · obtain h | h | ⟨w, h⟩ | h := phase_kinds ht
    · rw [control_of_idle h, control_of_idle (s := { s with pins := p }) h]
    · rw [control_of_drive h, control_of_drive (s := { s with pins := p }) h]
      show ((if s.hc.toNat + 1 = s.holdCycles then _ else _), _) = _
      cases s.phase <;> simp only <;> split_ifs <;> rfl
    · have h' : State.wait { s with pins := p } = some w := h
      cases ho : s.waitOutcome w with
      | running k win => rw [control_of_running h ho, control_of_running (s := { s with pins := p }) h' ho]
      | timeout => rw [control_of_timeout h ho, control_of_timeout (s := { s with pins := p }) h' ho]; rfl
      | success e =>
        rw [control_of_success h ho, control_of_success (s := { s with pins := p }) h' ho]
        exact successStep_setPins s e p
    · rw [control_of_validate h, control_of_validate (s := { s with pins := p }) h]
      exact congrArg (fun t => (t, true)) (recordVerdict_setPins s.verdict s p)
  · cases hp : s.phase <;> simp_all [controlStep]

/-- Without a write, an edge is its control part. -/
theorem edgeCore_noWrite {s : State} (h : s.pins.busWe = false) : edgeCore s = (controlStep s).1 := by
  simp [edgeCore, State.commandWord, h, hostWrite]

theorem commandWord_none_or (s : State) :
    s.commandWord = none ∨ (s.pins.busWe = true ∧ wordIndex s.pins.busAddr = 1 ∧ s.commandWord = some s.pins.busWdata) := by
  unfold State.commandWord
  split_ifs with h <;> simp_all

/-- An idle block is changed by nothing but the host's write (44_control.md R129). -/
theorem edgeCore_idle_noCommand {s : State} (hp : s.phase = .idle) (hw : s.commandWord = none) :
    edgeCore s = hostWrite s false s := by
  simp [edgeCore, hw, control_of_idle hp]

theorem acceptOf_setPins (i : Instr) (s : State) (p : Ports) :
    acceptOf i { s with pins := p } = { acceptOf i s with pins := p } := by
  cases i <;> rfl

theorem hostWrite_setPins (s c : State) (b : Bool) (p : Ports) :
    hostWrite s b { c with pins := p } = { hostWrite s b c with pins := p } := by
  unfold hostWrite
  repeat' split
  all_goals rfl

/-- Cycles with the same write lead to the same state (20_memory.md R44). -/
theorem edgeCore_setPins (s : State) (p : Ports) (hwe : p.busWe = s.pins.busWe)
    (haddr : wordIndex p.busAddr = wordIndex s.pins.busAddr) (hdata : p.busWdata = s.pins.busWdata) :
    edgeCore { s with pins := p } = { edgeCore s with pins := p } := by
  have hcmd : State.commandWord { s with pins := p } = s.commandWord := by simp [State.commandWord, hwe, haddr, hdata]
  unfold edgeCore
  rw [hcmd]
  cases s.commandWord with
  | some v =>
    simp only
    split_ifs
    · exact acceptOf_setPins _ _ _
    · rw [control_setPins]
  | none =>
    simp only [control_setPins, hostWrite_setPins]
    simp only [hostWrite, hwe, haddr, hdata]

theorem latch_setPins (t : State) (p : Ports) (h : p.lineIn = t.pins.lineIn) : latch { t with pins := p } = latch t := by
  simp only [latch, nextCycle, State.nextPorts, h]

/-- Whatever the host drives besides its write plays no part. -/
theorem step_setPins (s : State) (p : Ports) (hrst : p.rst = s.pins.rst) (hline : p.lineIn = s.pins.lineIn)
    (hwe : p.busWe = s.pins.busWe) (haddr : wordIndex p.busAddr = wordIndex s.pins.busAddr)
    (hdata : p.busWdata = s.pins.busWdata) : step { s with pins := p } = step s := by
  cases hr : s.pins.rst with
  | true => rw [step_of_rst (s := s) hr, step_of_rst (by exact hrst.trans hr)]; rfl
  | false =>
    rw [step_of_noRst (s := s) hr, step_of_noRst (by exact hrst.trans hr), edgeState_eq, edgeState_eq,
      edgeCore_setPins _ _ hwe haddr hdata, latch_setPins _ _ (by rw [hline, (edgeCore_inputs s).2.1])]
    rfl

/-- The edge of a quiet host is the control part and the synchronizer. -/
theorem step_withoutWrite (s : State) : step s.withoutWrite = finish s (latch (controlStep s).1) := by
  have h : controlStep s.withoutWrite = _ := control_setPins s { s.pins with rst := false, busWe := false }
  rw [step_of_noRst (s := s.withoutWrite) rfl, edgeState_eq, edgeCore_noWrite (s := s.withoutWrite) rfl, h]
  show finish s _ = _
  rw [latch_setPins]
  rw [(control_frame s).pins]

theorem step_eq_withoutWrite {s : State} (hr : s.pins.rst = false) (h : edgeCore s = (controlStep s).1) :
    step s = step s.withoutWrite := by
  rw [step_of_noRst hr, step_withoutWrite, edgeState_eq, h]

/-- A command to an idle block is its accept (44_control.md R118). -/
theorem exec_of_idle {s : State} (i : Instr) (hl : s.Legal) (hp : s.phase = .idle) :
    exec i s = .next (latch (acceptOf i s)) := by
  rw [exec_eq, commandEdge, commandEdgeState, if_pos hp, finish_of_legal hl]

/-- A command to a busy block is ignored (44_control.md R119). -/
theorem exec_of_busy {s : State} (i : Instr) (hl : s.Legal) (hp : s.phase ≠ .idle) :
    exec i s = .next (latch (controlStep s).1) := by
  rw [exec_eq, commandEdge, commandEdgeState, if_neg hp, finish_of_legal hl]

theorem inputsAdvance_latch (s : State) : s.InputsAdvance (latch s) := by
  constructor <;> simp [nextPorts_eq]

theorem inputsAdvance_accept (i : Instr) (s : State) : s.InputsAdvance (latch (acceptOf i s)) := by
  obtain ⟨h1, h2, h3, h4, h5⟩ := acceptOf_inputs i s
  constructor <;> simp [h1, h2, h3, h4, h5, nextPorts_congr h3 h4, nextPorts_eq]

theorem inputsAdvance_edge (s : State) : s.InputsAdvance (latch (edgeCore s)) := by
  rw [← edgeState_eq]
  exact edgeState_inputs s

/-- Moving the synchronizer and the inputs on changes nothing a host can read. -/
theorem sameBlock_latch (s : State) : s.SameBlock (latch s) := by
  constructor <;> first | rfl | intro idx; rfl

/-- A word index other than CMD is one that part (2) of an edge writes, or one it does not. -/
theorem wordIndex_cases (j : BitVec 4) : j ≠ 1 →
    j = 0 ∨ j = 2 ∨ j = 3 ∨ j = 4 ∨ j = 8 ∨
      (j.toNat ≠ 0 ∧ j.toNat ≠ 2 ∧ j.toNat ≠ 3 ∧ j.toNat ≠ 4 ∧ j.toNat ≠ 8 ∧
        j ≠ 0 ∧ j ≠ 2 ∧ j ≠ 3 ∧ j ≠ 4 ∧ j ≠ 8) := by
  revert j
  decide

/-- IE after any edge without `rst` (10_state.md R22). -/
theorem edgeCore_ie (s : State) : (edgeCore s).ie = s.ieAfter := by
  by_cases hp : s.phase = .idle
  · obtain hc | ⟨hwe, hi, hc⟩ := commandWord_none_or s
    · rw [edgeCore_idle_noCommand hp hc]
      simp only [hostWrite, State.ieAfter]
      cases hw : s.pins.busWe with
      | false => simp
      | true =>
        generalize wordIndex s.pins.busAddr = idx
        have key : ∀ j : BitVec 4, j = 0 ∨ (j.toNat ≠ 0 ∧ (j == 0) = false) := by decide
        obtain rfl | ⟨h0, h0'⟩ := key idx
        · simp
        · simp only [h0', if_true, Bool.and_false, Bool.false_eq_true, if_false]
          split
          · omega
          · rfl
          all_goals ((try split_ifs); rfl)
    · have hie : (acceptOf (decodeWord s.pins.busWdata) s).ie = s.ie := by
        cases decodeWord s.pins.busWdata <;> rfl
      simp [edgeCore, hc, hp, hie, State.ieAfter, hwe, hi]
  · rw [edgeCore_busy hp]

/-- No edge takes a code that is never taken or produced (30_encoding.md R62, R63). -/
theorem legal_step {s t : State} (hl : s.Legal) (h : step s = .next t) : t.Legal := by
  obtain ⟨-, rfl⟩ | ⟨-, -, rfl⟩ := step_eq_next_iff.mp h
  · exact ⟨rfl, rfl⟩
  rw [edgeState_eq]
  by_cases hp : s.phase = .idle
  · obtain hc | ⟨-, -, hc⟩ := commandWord_none_or s
    · rw [edgeCore_idle_noCommand hp hc]
      unfold hostWrite
      repeat' split
      all_goals exact hl
    · simp only [edgeCore, hc, hp, if_true]
      cases decodeWord s.pins.busWdata <;> first | exact hl | exact ⟨rfl, rfl⟩
  · rw [edgeCore_busy hp]
    show State.Legal (controlStep s).1
    obtain hi | hd | ⟨w, hw⟩ | hv := phase_kinds hl.1
    · exact absurd hi hp
    · rw [control_of_drive hd]
      cases hq : s.phase <;> simp [hq] at hd <;> simp only <;> split_ifs <;> exact ⟨rfl, hl.2⟩
    · cases ho : s.waitOutcome w with
      | running k win => rw [control_of_running hw ho]; exact hl
      | timeout => rw [control_of_timeout hw ho]; exact ⟨rfl, rfl⟩
      | success e =>
        rw [control_of_success hw ho]
        unfold successStep
        cases hq : s.phase <;> simp only [thenWait, ackHighDone, bitLowDone, bitHighDone, waitCmdDone] <;>
          (try split_ifs) <;> first | exact ⟨rfl, hl.2⟩ | exact ⟨rfl, rfl⟩
    · rw [control_of_validate hv]
      cases s.verdict <;> exact ⟨rfl, rfl⟩

end Sys2Proof.Machine
end

