-- ==== Sys2Proof/Laws/PerInstr.lean ====
section
/-! SUPPORT. The family CommandWord: what every word of a command shows, one lemma per command. -/

namespace Sys2Proof.Laws.CommandWord

/-- Every word of the command `i` shows its OP in bits 2:0 (30_encoding.md R56, R58), the canonical one is the OP
itself (R61), and the decoder reads the OP back. -/
def Statement (i : Instr) : Prop :=
  (∀ ignored, (encodeWith ignored i).extractLsb' 0 3 = i.opcode) ∧ (encode i).toNat = i.opcode.toNat ∧
    decodeOp i.opcode = i

theorem nop : Statement .nop := ⟨fun ignored => encodeWith_op ignored .nop, by decide, rfl⟩
theorem read : Statement .read := ⟨fun ignored => encodeWith_op ignored .read, by decide, rfl⟩
theorem readBare : Statement .readBare := ⟨fun ignored => encodeWith_op ignored .readBare, by decide, rfl⟩
theorem validate : Statement .validate := ⟨fun ignored => encodeWith_op ignored .validate, by decide, rfl⟩
theorem waitLow : Statement .waitLow := ⟨fun ignored => encodeWith_op ignored .waitLow, by decide, rfl⟩
theorem waitHigh : Statement .waitHigh := ⟨fun ignored => encodeWith_op ignored .waitHigh, by decide, rfl⟩
theorem reserved6 : Statement .reserved6 := ⟨fun ignored => encodeWith_op ignored .reserved6, by decide, rfl⟩
theorem reserved7 : Statement .reserved7 := ⟨fun ignored => encodeWith_op ignored .reserved7, by decide, rfl⟩

end Sys2Proof.Laws.CommandWord
end

