-- ==== Sys2Proof/Machine/Host.lean ====
section
/-! DEFINITION. Host programs, one bus access a cycle, and the pseudo-operations (30_encoding.md R61). -/

namespace Sys2Proof.Machine

/-- A line of a host program that takes a fixed number of cycles (30_encoding.md R61). -/
inductive HostOp where
  /-- `wr OFF, V` -/
  | wr (off : BitVec 6) (v : Word)
  /-- `rd OFF` -/
  | rd (off : BitVec 6)
  /-- `idle N` -/
  | idle (n : Nat)
deriving DecidableEq, Repr

/-- The bus cycles of a host program line, the line at the given level throughout (95_test_vectors.md Part 3:
a `wr` is one cycle with `bus_we = 1`, a `rd` one with `bus_we = 0`). -/
def HostOp.cycles (level : Level) : HostOp → List Ports
  | .wr off v => [{ rst := false, lineIn := level, busWe := true, busAddr := off, busWdata := v }]
  | .rd off => [{ rst := false, lineIn := level, busWe := false, busAddr := off, busWdata := 0 }]
  | .idle n => List.replicate n (quietPorts level)

/-- `cmd X` -/
def hostCmd (i : Instr) : List HostOp := [.wr 0x04 (encode i)]

/-- `clrdone` -/
def hostClrDone : List HostOp := [.wr 0x08 0x2]

/-- `ie 1` and `ie 0` -/
def hostIe (on : Bool) : List HostOp := [.wr 0x00 (if on then 0x1 else 0x0)]

/-- `frame B1 B2 B3 B4 B5` -/
def hostFrame (b1 b2 b3 b4 b5 : Byte) : List HostOp :=
  [.wr 0x0C ((b1 ++ b2 ++ b3 ++ b4).setWidth 32), .wr 0x10 (b5.setWidth 32)]

/-- `waitcfg T` -/
def hostWaitCfg (t : BitVec 16) : List HostOp := [.wr 0x20 (t.setWidth 32)]

/-- `poll` repeats `rd 0x08` until this read shows bit 0 (BUSY) at 0; how often depends on the block, so it is a
test on the state and not a list of cycles (log entry 18). -/
def State.pollEnds (s : State) : Bool :=
  !(s.memRead 0x08).getLsbD 0

/-- The bus cycles of a program, the line at the given level throughout. -/
def hostCycles (level : Level) (program : List HostOp) : List Ports :=
  program.flatMap (HostOp.cycles level)

/-- The given cycles with the line at the given levels, as long as both last. -/
def withLine (cycles : List Ports) (levels : List Level) : List Ports :=
  List.zipWith (fun p l => { p with lineIn := l }) cycles levels

end Sys2Proof.Machine
end

