-- ==== Sys2Proof/Tests/Slice0.lean ====
section
/-! SUPPORT. Tests: well-formedness, decoding of words written out from the spec, single edges against rows of
95_test_vectors.md, and for every statement with hypotheses a state and operands that meet them. -/

namespace Sys2Proof.Tests

open Sys2Proof.Machine

/-! ### States -/

/-- The reset state at CYCLES_PER_US = 1, the host quiet and the line High for the next cycles. -/
def base : State :=
  { State.reset with cyclesPerUsPred := 0, script := List.replicate 4 (quietPorts .high) }

/-- `s` with the host writing `v` to the byte address `addr` in this cycle. -/
def writing (addr : BitVec 6) (v : Word) (s : State) : State :=
  { s with pins := { s.pins with busWe := true, busAddr := addr, busWdata := v } }

/-- `s` in the phase `p`. -/
def inPhase (p : Phase) (s : State) : State :=
  { s with phase := p }

/-- `s` in the phase `p` with `k` samples taken of its wait, the last two at `l`, and the next sample `l` too. -/
def waiting (p : Phase) (k : Nat) (l : Level) (s : State) : State :=
  { s with phase := p, k := BitVec.ofNat 32 k, win := fullWindow l &&& 3, sync2 := l }

/-- `s` with the line at `l` for this cycle and the next `n`, and in the synchronizer. -/
def lineHeld (l : Level) (n : Nat) (s : State) : State :=
  { s with sync1 := l, sync2 := l, pins := { s.pins with lineIn := l }, script := List.replicate n (quietPorts l) }

/-- `s` with the frame B1 to B5. -/
def framed (hi : Word) (lo : Byte) (s : State) : State :=
  { s with frameHi := hi, frameLo := lo }

/-- One field of the next state. -/
def seen {α : Type} (f : State → α) : Host.Outcome State Fault Refusal → Option α
  | .next t => some (f t)
  | .fault _ => none
  | .refused _ => none

/-! ### Well-formedness -/

/-- No command has an operand that could be ill-formed (30_encoding.md R57). -/
theorem test_wellFormed_commands :
    [Instr.nop, .read, .readBare, .validate, .waitLow, .waitHigh, .reserved6, .reserved7].all Instr.wellFormed = true := by
  decide

/-- Ill-formed: three bytes, five bytes and none are no command word (30_encoding.md R56, R60). -/
theorem test_wellFormed_refuses_lengths :
    wellFormedLength [1, 0, 0] = false ∧ wellFormedLength [1, 0, 0, 0, 0] = false ∧ wellFormedLength [] = false ∧
      wellFormedLength [1, 0, 0, 0] = true ∧
      decodeBytes [1, 0, 0] = .error (.wrongLength 3) ∧ decodeBytes [1, 0, 0, 0, 0] = .error (.wrongLength 5) ∧
      decodeBytes [] = .error (.wrongLength 0) := by
  decide

/-! ### Decoding: words written out from 30_encoding.md R56 and R58, bits 31:3 then OP -/

theorem test_decode_nop : decodeWord 0b00000000000000000000000000000000 = .nop := by decide
theorem test_decode_read : decodeWord 0b00000000000000000000000000000001 = .read := by decide
theorem test_decode_readBare : decodeWord 0b00000000000000000000000000000010 = .readBare := by decide
theorem test_decode_validate : decodeWord 0b00000000000000000000000000000011 = .validate := by decide
theorem test_decode_waitLow : decodeWord 0b00000000000000000000000000000100 = .waitLow := by decide
theorem test_decode_waitHigh : decodeWord 0b00000000000000000000000000000101 = .waitHigh := by decide
theorem test_decode_reserved6 : decodeWord 0b00000000000000000000000000000110 = .reserved6 := by decide
theorem test_decode_reserved7 : decodeWord 0b11111111111111111111111111111111 = .reserved7 := by decide

/-- Bits 31:3 are ignored (30_encoding.md R56; 95_test_vectors.md K7). -/
theorem test_decode_ignores_upper_bits :
    decodeWord 0x9 = .read ∧ decodeWord 0xFFFFFFF8 = .nop ∧ decodeWord 0x80000005 = .waitHigh := by
  decide

/-- The canonical words (30_encoding.md R61). -/
theorem test_encode_words :
    encode .nop = 0 ∧ encode .read = 1 ∧ encode .readBare = 2 ∧ encode .validate = 3 ∧ encode .waitLow = 4 ∧
      encode .waitHigh = 5 ∧ encode .reserved6 = 6 ∧ encode .reserved7 = 7 := by
  decide

/-- The opcode table's numbering of the bits: 32 bits, or fewer with zeros above. -/
theorem test_decodeTableWord :
    decodeTableWord 32 1 = some .read ∧ decodeTableWord 32 0xFFFFFFFD = some .waitHigh ∧ decodeTableWord 8 3 = some .validate ∧
      decodeTableWord 8 0x102 = some .readBare ∧ decodeTableWord 40 1 = none := by
  decide

/-! ### Commands, one edge each -/

/-- K5: NOP leaves DONE and RESULT. -/
theorem test_nop_keeps_status :
    seen (·.regValue 2) (exec .nop { base with done := true, result := .ok }) = some 0x12 := by
  decide

/-- K12: after READ, STATUS is 0x00000101, and RESULT, ERRINFO, FRAME and DATA are 0; ELAPSED stays. -/
theorem test_read_accept :
    seen (fun t => [t.regValue 2, t.regValue 3, t.regValue 4, t.regValue 5, t.regValue 6, t.regValue 7])
      (exec .read { base with done := true, result := .timeout, frameHi := 5, frameLo := 6, elapsed := 7,
                              data := ⟨8, 9⟩, errInfo := timeoutInfo .high .waitCmd 0 100 }) =
      some [0x101, 0, 0, 0, 7, 0] := by
  decide

/-- X2: reset wins over a command at the same edge. -/
theorem test_read_loses_to_reset :
    seen (fun t => (t.regValue 2, t.phase))
      (step { writing 4 1 base with pins := { (writing 4 1 base).pins with rst := true } }) = some (0, .idle) := by
  decide

/-- READ_BARE sets STATUS.BARE: 0x00001101 (10_state.md R24, R34). -/
theorem test_readBare_accept : seen (·.regValue 2) (exec .readBare base) = some 0x1101 := by
  decide

/-- P1 line 4: after VALIDATE, STATUS is 0x00000B01. -/
theorem test_validate_accept : seen (·.regValue 2) (exec .validate base) = some 0xB01 := by
  decide

/-- While a WAIT_CMD wait runs, STATUS is 0x00000C01 (95_test_vectors.md 2.1). -/
theorem test_waitLow_accept :
    seen (fun t => (t.regValue 2, t.wlevel, t.lineOe)) (exec .waitLow { base with wlevel := .high }) =
      some (0xC01, .low, false) := by
  decide

theorem test_waitHigh_accept :
    seen (fun t => (t.regValue 2, t.wlevel, t.k)) (exec .waitHigh { base with k := 9 }) = some (0xC01, .high, 0) := by
  decide

/-- K6: the reserved codes change nothing. -/
theorem test_reserved6_keeps_status :
    seen (·.regValue 2) (exec .reserved6 { base with done := true, result := .ok }) = some 0x12 := by
  decide

theorem test_reserved7_keeps_status :
    seen (·.regValue 2) (step (writing 4 0xFFFFFFFF { base with done := true, result := .ok })) = some 0x12 := by
  decide

/-- K8: a VALIDATE written during a READ is ignored. -/
theorem test_validate_while_busy :
    seen (·.regValue 2) (exec .validate (inPhase .hsIdleHigh base)) = some 0x101 := by
  decide

/-! ### The units, one edge each -/

/-- W3 and W5's last edge: the third matching sample at k = 3 < 4 succeeds, ELAPSED = 3, STATUS 0x12. -/
theorem test_wait_third_match :
    seen (fun t => (t.regValue 2, t.regValue 6))
      (step (waiting .waitCmd 2 .low { base with waitCfg := 4, wlevel := .low })) = some (0x12, 3) := by
  decide

/-- W4: the match at k = 3 = T loses; ERRINFO is 0x000300C0. -/
theorem test_wait_timeout_wins :
    seen (fun t => (t.regValue 2, t.regValue 6, t.regValue 7))
      (step (waiting .waitCmd 2 .low { base with waitCfg := 3, wlevel := .low, elapsed := 5 })) =
      some (0x22, 5, 0x000300C0) := by
  decide

/-- W6: TIMEOUT_US = 0 times out at the first sample. -/
theorem test_wait_zero_timeout :
    seen (fun t => (t.regValue 2, t.regValue 7)) (step (waiting .waitCmd 0 .low { base with waitCfg := 0 })) =
      some (0x22, 0x000000C0) := by
  decide

/-- HS_START_LOW drives Low and lasts 1000 µs (41_handshake.md R83). -/
theorem test_startLow_last_cycle :
    let s := { inPhase .hsStartLow base with hc := 999 }
    s.lineOut = .low ∧ s.lineOe = true ∧ seen (fun t => (t.phase, t.hc, t.lineOut)) (step s) = some (.hsRelease, 0, .high) := by
  decide

/-- S6b: READ_BARE's timeout at site 6 shows STATUS 0x00001022 and ERRINFO 0x00640061. -/
theorem test_ackHigh_timeout_bare :
    seen (fun t => (t.regValue 2, t.regValue 7))
      (step { waiting .hsAwaitAckHigh 99 .low base with bare := true }) = some (0x1022, 0x00640061) := by
  decide

/-- F1 and F2: a High phase of 49 cycles is a 0, one of 50 a 1. -/
theorem test_threshold :
    seen (·.bitval) (step (waiting .frWaitLow 48 .low base)) = some false ∧
      seen (·.bitval) (step (waiting .frWaitLow 49 .low base)) = some true := by
  decide

/-- Bit 39 lands in FRAME_LO[0] and completes the frame (42_frame_reader.md R100, R101). -/
theorem test_last_bit :
    seen (fun t => (t.regValue 3, t.regValue 4, t.phase, t.bitidx))
      (step { waiting .frWaitHigh 2 .high base with bitidx := 39, bitval := true, sr := 0x0146008048 }) =
      some (0x028C0100, 0x91, .validate, 40) := by
  decide

/-- S10: a timeout at bit 39's High wait. -/
theorem test_last_bit_timeout :
    seen (fun t => (t.regValue 2, t.regValue 7))
      (step { waiting .frWaitHigh 499 .low base with bitidx := 39 }) = some (0x00270022, 0x01F427A1) := by
  decide

/-- V1 and V2. -/
theorem test_validate_checksum :
    seen (fun t => (t.regValue 2, t.regValue 5)) (step (framed 0x028C0101 0x90 (inPhase .validate base))) =
        some (0x12, 0x0101028C) ∧
      seen (fun t => (t.regValue 2, t.regValue 5)) (step (framed 0x028C0101 0x91 (inPhase .validate base))) =
        some (0x32, 0) := by
  decide

/-- V3 to V6, V9 and V11. -/
theorem test_validate_ranges :
    validate 0x03 0xE8 0x03 0x20 0x0E = .ok 1000 800 ∧ validate 0x03 0xE9 0x03 0x20 0x0F = .humidityOutOfRange ∧
      validate 0x03 0xE8 0x03 0x21 0x0F = .temperatureOutOfRange ∧
      validate 0x03 0xE9 0x03 0x21 0x10 = .humidityOutOfRange ∧ validate 0x03 0xE9 0x03 0x21 0x11 = .checksumMismatch ∧
      validate 0x00 0x64 0x80 0x65 0x49 = .temperatureOutOfRange := by
  decide

/-! ### The bus and the flags -/

/-- B2 to B5. -/
theorem test_bus_write_masks :
    seen (·.regValue 0) (step (writing 0x00 0xFFFFFFFF base)) = some 1 ∧
      seen (·.regValue 8) (step (writing 0x20 0x12345678 base)) = some 0x5678 ∧
      seen (·.regValue 4) (step (writing 0x10 0x1FF base)) = some 0xFF ∧
      seen (·.regValue 3) (step (writing 0x0C 0xCAFEF00D base)) = some 0xCAFEF00D := by
  decide

/-- B7 to B10: read-only words, STATUS, unmapped words, and the ignored low address bits. -/
theorem test_bus_ignored_writes :
    seen (·.regValue 5) (step (writing 0x14 0xFFFFFFFF base)) = some 0 ∧
      seen (·.regValue 2) (step (writing 0x08 0xFFFFFFFF base)) = some 0 ∧
      seen (·.regValue 9) (step (writing 0x24 0xFFFFFFFF base)) = some 0 ∧
      (framed 0x12345678 0 base).memRead 0x0E = 0x12345678 := by
  decide

/-- K2: DONE's set wins over the clear at the same edge. -/
theorem test_done_set_wins :
    seen (·.done) (step (writing 0x08 0x2 (inPhase .validate base))) = some true := by
  decide

/-- K3 and K4. -/
theorem test_done_clear :
    seen (·.regValue 2) (step (writing 0x08 0x2 { base with done := true, result := .ok })) = some 0x10 ∧
      seen (·.regValue 2) (step (writing 0x08 0xFFFFFFFD { base with done := true, result := .ok })) = some 0x12 := by
  decide

/-- K9 and K10: during a READ only CTRL can be written. -/
theorem test_busy_writes :
    seen (fun t => (t.regValue 3, t.phase)) (step (writing 0x0C 0x12345678 (inPhase .hsIdleHigh base))) =
        some (0, .hsIdleHigh) ∧
      seen (·.regValue 0) (step (writing 0x00 0x1 (inPhase .hsIdleHigh base))) = some 1 := by
  decide

/-- K11: IE raises `irq` while DONE stands. -/
theorem test_irq_by_ie :
    let s := writing 0x00 0x1 { base with done := true }
    s.irq = false ∧ seen (·.irq) (step s) = some true := by
  decide

/-- `wr 0x0C, V` and `cmd READ` as bus cycles (30_encoding.md R61). -/
theorem test_host_program :
    hostCycles .high (hostFrame 0x02 0x8C 0x01 0x01 0x90 ++ hostCmd .read) =
      [⟨false, .high, true, 0x0C, 0x028C0101⟩, ⟨false, .high, true, 0x10, 0x90⟩, ⟨false, .high, true, 0x04, 0x1⟩] := by
  decide

/-- A fetched table word is the command the next edge runs. -/
theorem test_withFetchWord :
    seen (·.phase) (step (base.withFetchWord 32 3)) = some .validate ∧
      seen (·.phase) (step (base.withFetchWord 32 5)) = some .waitCmd := by
  decide

/-! ### Witnesses: the invariant -/

/-- The invariant from conditions that can be decided. -/
theorem inv_of {s : State}
    (h : s.Legal ∧ (s.phase ≠ .idle → s.done = false ∧ s.result = .none) ∧ (s.done = true → s.result ≠ .none) ∧
      (s.result ≠ .timeout → s.errInfo = ErrInfo.zero) ∧ (s.result = .timeout → s.errInfo.site.isWait = true) ∧
      (s.data.humRaw.toNat ≤ 1000 ∧ s.data.tempRaw.toNat ≤ 800) ∧
      (s.result = .checksumMismatch ∨ s.result = .humidityOutOfRange ∨ s.result = .temperatureOutOfRange →
        s.data = Reading.zero))
    (h' : (s.phase.isDrive = true → s.hc.toNat < s.holdCycles) ∧
      (∀ w ∈ s.wait, s.k = 0 ∨ s.k.toNat < usToCycles s.cyclesPerUs w.timeoutUs) ∧
      (s.phase.isWait = true → s.k.toNat ≤ 2 → s.win.toNat < 2 ^ s.k.toNat) ∧
      (s.phase.isReading = true → s.frameHi = 0 ∧ s.frameLo = 0 ∧ s.data = Reading.zero) ∧
      (s.phase = .validate → s.data = Reading.zero) ∧ (s.bitidx.toNat ≤ 40 ∧ s.sr.toNat < 2 ^ s.bitidx.toNat) ∧
      (s.phase.isFrame = true → s.bitidx.toNat < 40) ∧
      (s.phase.isReading = true → s.phase.isFrame = false → s.bitidx = 0) ∧
      (s.bare = true → s.phase ≠ .hsAwaitStartLow ∧ s.phase ≠ .hsAwaitStartHigh) ∧
      (s.elapsed = 0 ∨ 3 ≤ s.elapsed.toNat)) : s.Inv := by
  obtain ⟨h1, h2, h3, h4, h5, h6, h7⟩ := h
  obtain ⟨g1, g2, g3, g4, g5, g6, g7, g8, g9, g10⟩ := h'
  exact ⟨h1, h2, h3, h4, h5, h6, h7, g1, g2, g3, g4, g5, g6, g7, g8, g9, g10⟩

theorem inv_base : base.Inv := inv_of (by decide) (by decide)
theorem inv_idleDone : ({ base with done := true, result := .ok, ie := true } : State).Inv := inv_of (by decide) (by decide)
theorem inv_idleHigh : (inPhase .hsIdleHigh base).Inv := inv_of (by decide) (by decide)
theorem inv_validate : (framed 0x028C0101 0x91 (inPhase .validate base)).Inv := inv_of (by decide) (by decide)
theorem inv_sensorHigh : (waiting .hsAwaitSensorHigh 99 .low base).Inv := inv_of (by decide) (by decide)
theorem inv_frLow : ({ waiting .frWaitLow 499 .high base with bitidx := 39 } : State).Inv :=
  inv_of (by decide) (by decide)
theorem inv_waitCmd : (inPhase .waitCmd base).Inv := inv_of (by decide) (by decide)

/-! ### Witnesses: no reset ahead -/

/-- A script of `n` equal cycles is what lies ahead. -/
theorem portsAt_replicate {s : State} {n : Nat} {p : Ports} (hs : s.script = List.replicate n p) {j : Nat} (hj : j < n) :
    s.portsAt (j + 1) = p := by
  simp [State.portsAt, hs, hj]

/-- Cycles without a reset bring no reset. -/
theorem noReset_of_script {s : State} (hs : ∀ p ∈ s.script, p.rst = false) (h0 : s.pins.rst = false) :
    s.NoReset (s.script.length + 1) := by
  intro j hj
  cases j with
  | zero => exact h0
  | succ j =>
    have hj' : j < s.script.length := by omega
    simp only [State.portsAt, List.getElem?_eq_getElem hj', Option.getD_some]
    exact hs _ (List.getElem_mem hj')

theorem noReset_of_replicate {s : State} {n : Nat} {p : Ports} (hs : s.script = List.replicate n p)
    (hp : p.rst = false) (h0 : s.pins.rst = false) : s.NoReset (n + 1) := by
  have h := noReset_of_script (s := s) (fun q hq => by rw [hs] at hq; rw [List.eq_of_mem_replicate hq, hp]) h0
  rwa [hs, List.length_replicate] at h

/-! ### Witnesses: states and operands that meet the hypotheses of each statement, one for each clause -/

theorem witness_EncodedCommandsDecodeToThemselves :
    Instr.nop.wellFormed = true ∧ Instr.reserved7.wellFormed = true := by
  decide

theorem witness_EveryWordNamesExactlyOneCommand :
    decodeWord 0xFFFFFFF9 = .read ∧ (0xFFFFFFF9 : Word).extractLsb' 0 3 = Instr.read.opcode ∧
      (∃ i, decodeBytes [7, 0, 0, 0] = .ok i) ∧ ¬ (∃ i, decodeBytes [7, 0, 0] = .ok i) :=
  ⟨by decide, by decide, ⟨.reserved7, by decide⟩, by rintro ⟨i, h⟩; exact absurd h (by simp [decodeBytes])⟩

theorem witness_StepRunsTheWrittenCommand :
    (∀ addr ∈ [(4 : BitVec 6), 5, 6, 7], (writing addr 1 base).pins.rst = false ∧ (writing addr 1 base).pins.busWe = true ∧
      wordIndex (writing addr 1 base).pins.busAddr = 1) := by
  decide

/-- A busy state with `rst` high. -/
def resetting : State :=
  { inPhase .frWaitHigh base with pins := { base.pins with rst := true } }

theorem witness_ResetEdgeSetsEveryRegister : resetting.pins.rst = true := by
  decide

theorem witness_StepFaultsExactlyOnUnusedCodes :
    resetting.pins.rst = true ∧ base.pins.rst = false ∧ base.Legal ∧
      (inPhase .unused13 base).phase.taken = false ∧ (inPhase .unused15 base).phase.taken = false ∧
      (inPhase .waitCmd base).Legal ∧ ({ base with result := .temperatureOutOfRange } : State).Legal ∧
      ({ base with result := .unused6 } : State).phase.taken = true ∧
      ({ base with result := .unused6 } : State).result.produced = false ∧
      ({ base with result := .unused7 } : State).result.produced = false := by
  decide

theorem witness_InputsMoveAndParameterStays :
    base.pins.rst = false ∧ (∃ t, step base = .next t) ∧ resetting.pins.rst = true ∧ (∃ t, step resetting = .next t) ∧
      base.cyclesPerUs = 1 ∧ ({ base with cyclesPerUsPred := 65534 } : State).cyclesPerUs = 65535 :=
  ⟨rfl, ⟨_, rfl⟩, rfl, ⟨_, rfl⟩, rfl, rfl⟩

theorem noReset_base (n : Nat) (h : n ≤ 5) : base.NoReset n :=
  noReset_mono h (noReset_of_replicate (n := 4) rfl rfl rfl)

theorem witness_SampleIsTheLineThreeCyclesEarlier : base.NoReset 2 ∧ ∃ t, runSteps 2 base = .next t :=
  ⟨noReset_base 2 (by decide), _, rfl⟩

theorem witness_ReadsHaveNoSideEffect : base.pins.busWe = false := by
  decide

theorem witness_IdleBusWritesTakeEffect :
    ∀ addr ∈ [(0x00 : BitVec 6), 0x08, 0x0B, 0x0C, 0x10, 0x14, 0x18, 0x1C, 0x20, 0x24, 0x3F],
      (writing addr 0xFFFFFFFF base).Legal ∧ (writing addr 0xFFFFFFFF base).phase = .idle ∧
        (writing addr 0xFFFFFFFF base).pins.rst = false ∧ (writing addr 0xFFFFFFFF base).pins.busWe = true ∧
        wordIndex (writing addr 0xFFFFFFFF base).pins.busAddr ≠ 1 := by
  decide

theorem witness_BusyWritesAreIgnoredButCtrlAndStatus :
    ∀ addr ∈ [(0x04 : BitVec 6), 0x07, 0x0C, 0x10, 0x20, 0x3F],
      (writing addr 3 (inPhase .hsIdleHigh base)).phase ≠ .idle ∧
        (writing addr 3 (inPhase .hsIdleHigh base)).pins.rst = false ∧
        wordIndex (writing addr 3 (inPhase .hsIdleHigh base)).pins.busAddr ≠ 0 ∧
        wordIndex (writing addr 3 (inPhase .hsIdleHigh base)).pins.busAddr ≠ 2 := by
  decide

theorem witness_CtrlWriteTakesEffectInEveryPhase :
    (writing 0x00 1 (inPhase .waitCmd base)).Legal ∧ (writing 0x00 1 (inPhase .waitCmd base)).pins.rst = false ∧
      (writing 0x00 1 (inPhase .waitCmd base)).Writes 0 ∧ (writing 0x03 1 base).Writes 0 ∧
      ¬ (writing 0x04 1 base).Writes 0 ∧ ¬ base.Writes 0 := by
  unfold State.Writes
  decide

theorem witness_DoneSetWinsOverClear :
    (writing 0x08 2 (inPhase .validate base)).pins.rst = false ∧
      (writing 0x08 2 (inPhase .validate base)).phase ≠ .idle ∧
      seen (·.phase) (step (writing 0x08 2 (inPhase .validate base))) = some .idle ∧
      seen (·.phase) (step (writing 0x08 2 base)) = some .idle ∧ (writing 0x08 2 base).Writes 2 ∧
      (writing 0x0B 2 base).Writes 2 ∧
      seen (·.phase) (step (writing 0x08 2 (inPhase .hsIdleHigh base))) = some .hsIdleHigh ∧
      (writing 0x08 2 base).pins.busWdata.getLsbD 1 = true ∧ (writing 0x08 0xFFFFFFFD base).Writes 2 ∧
      (writing 0x08 0xFFFFFFFD base).pins.busWdata.getLsbD 1 = false := by
  unfold State.Writes
  decide

theorem witness_IrqNeverRisesWhileBusy :
    (framed 0x028C0101 0x91 (inPhase .validate base)).Inv ∧ (inPhase .hsIdleHigh base).Inv ∧
      ({ base with done := true, result := .ok, ie := true } : State).Inv ∧ base.pins.rst = false ∧
      seen (·.phase) (step (framed 0x028C0101 0x91 (inPhase .validate base))) = some .idle ∧
      seen (·.done) (step base) = some false ∧
      seen (·.ie) (step ({ base with done := true, result := .ok } : State)) = some false ∧
      (inPhase .hsIdleHigh base).busy = true ∧ seen (·.busy) (step (inPhase .hsIdleHigh base)) = some true ∧
      (∃ t, step (inPhase .hsIdleHigh base) = .next t) :=
  ⟨inv_validate, inv_idleHigh, inv_idleDone, by decide, by decide, by decide, by decide, by decide, by decide, _, rfl⟩

theorem witness_NopAndReservedCommandsChangeNothing :
    base.Legal ∧ base.phase = .idle ∧ (inPhase .hsRelease base).phase ≠ .idle := by
  decide

theorem witness_ReadAndReadBareStartAnAttempt :
    ({ base with done := true, result := .temperatureOutOfRange } : State).Legal ∧
      ({ base with done := true, result := .temperatureOutOfRange } : State).phase = .idle := by
  decide

theorem witness_ValidateStartsVal :
    (framed 0x028C0101 0x90 base).Legal ∧ (framed 0x028C0101 0x90 base).phase = .idle := by
  decide

theorem witness_WaitCommandsStartAWait :
    ({ base with waitCfg := 0xFFFF } : State).Legal ∧ ({ base with waitCfg := 0xFFFF } : State).phase = .idle := by
  decide

theorem witness_AcceptedCommandsFrame :
    base.phase = .idle ∧ (∀ i : Instr, ∃ t, exec i base = .next t) ∧
      (∀ idx ∈ [(0 : BitVec 4), 1, 6, 8, 9, 15], idx ≠ 2 ∧ idx ≠ 3 ∧ idx ≠ 4 ∧ idx ≠ 5 ∧ idx ≠ 7) :=
  ⟨by decide, fun i => by cases i <;> exact ⟨_, rfl⟩, by decide⟩

theorem witness_CommandsWhileBusyAreIgnored :
    (inPhase .hsIdleHigh base).phase ≠ .idle ∧ (inPhase .hsIdleHigh base).Legal ∧
      (inPhase .waitCmd base).phase ≠ .idle ∧ (inPhase .waitCmd base).Legal := by
  decide

theorem witness_IdleBlockIsQuiescent :
    base.Legal ∧ base.phase = .idle ∧ base.pins.rst = false ∧ base.pins.busWe = false := by
  decide

theorem witness_ResultsStandUntilAcceptOrReset :
    (writing 0x08 2 { base with done := true, result := .ok }).Legal ∧
      (writing 0x08 2 { base with done := true, result := .ok }).phase = .idle ∧
      (writing 0x08 2 { base with done := true, result := .ok }).pins.rst = false ∧
      (writing 0x08 2 { base with done := true, result := .ok }).accepts = none ∧
      (writing 0x04 0 base).accepts = none ∧ (writing 0x04 6 base).accepts = none ∧
      (writing 0x04 5 base).accepts = some .waitHigh := by
  decide

theorem witness_DrivePhaseCountsOrLeaves :
    let enter := fun p => inPhase p base
    let last := fun p n => ({ inPhase p base with hc := n } : State)
    (enter .hsIdleHigh).Legal ∧ (enter .hsIdleHigh).phase.isDrive = true ∧ (enter .hsIdleHigh).pins.rst = false ∧
      (enter .hsIdleHigh).hc.toNat + 1 ≠ (enter .hsIdleHigh).holdCycles ∧
      (last .hsIdleHigh 98).hc.toNat + 1 ≠ (last .hsIdleHigh 98).holdCycles ∧
      (last .hsIdleHigh 99).hc.toNat + 1 = (last .hsIdleHigh 99).holdCycles ∧
      (last .hsStartLow 999).hc.toNat + 1 = (last .hsStartLow 999).holdCycles ∧
      (enter .hsRelease).hc.toNat + 1 = (enter .hsRelease).holdCycles ∧ (enter .hsRelease).phase.isDrive = true := by
  decide

/-- A drive phase just entered, with `n` quiet cycles ahead. -/
def driving (p : Phase) (n : Nat) : State :=
  { inPhase p base with script := List.replicate n (quietPorts .high) }

theorem witness_DrivePhaseLastsExactlyItsLength :
    (driving .hsIdleHigh 100).Legal ∧ (driving .hsIdleHigh 100).phase.isDrive = true ∧ (driving .hsIdleHigh 100).hc = 0 ∧
      (driving .hsIdleHigh 100).holdCycles = 100 ∧ (driving .hsIdleHigh 100).NoReset 100 ∧
      (driving .hsStartLow 1000).Legal ∧ (driving .hsStartLow 1000).phase.isDrive = true ∧
      (driving .hsStartLow 1000).holdCycles = 1000 ∧ (driving .hsStartLow 1000).NoReset 1000 ∧
      (driving .hsRelease 1).Legal ∧ (driving .hsRelease 1).phase.isDrive = true ∧
      (driving .hsRelease 1).holdCycles = 1 ∧ (driving .hsRelease 1).NoReset 1 :=
  ⟨by decide, by decide, by decide, by decide, noReset_mono (by decide) (noReset_of_replicate (n := 100) rfl rfl rfl),
    by decide, by decide, by decide, noReset_mono (by decide) (noReset_of_replicate (n := 1000) rfl rfl rfl),
    by decide, by decide, by decide, noReset_mono (by decide) (noReset_of_replicate (n := 1) rfl rfl rfl)⟩

/-- A WAIT_CMD wait for `l` with the timeout `us`, `k` samples taken. -/
def commandWait (us : BitVec 16) (k : Nat) (l : Level) : State :=
  { waiting .waitCmd k l base with waitCfg := us, wlevel := l }

theorem witness_WaitEdgeWithoutEndOnlyCounts :
    (inPhase .waitCmd { base with waitCfg := 2 }).wait = some ⟨.low, 2⟩ ∧
      (inPhase .waitCmd { base with waitCfg := 2 }).Legal ∧ (inPhase .waitCmd { base with waitCfg := 2 }).pins.rst = false ∧
      (inPhase .waitCmd { base with waitCfg := 2 }).k.toNat + 1 < usToCycles 1 2 ∧
      (waiting .frWaitHigh 498 .low base).wait = some ⟨.high, 500⟩ ∧
      (waiting .frWaitHigh 498 .low base).k.toNat + 1 < usToCycles 1 500 ∧
      ¬ (3 ≤ (waiting .frWaitHigh 498 .low base).k.toNat + 1 ∧
        shiftWindow (waiting .frWaitHigh 498 .low base).win (waiting .frWaitHigh 498 .low base).sample = fullWindow .high) ∧
      ¬ (3 ≤ (commandWait 4 1 .high).k.toNat + 1 ∧
        shiftWindow (commandWait 4 1 .high).win (commandWait 4 1 .high).sample = fullWindow .high) := by
  decide

theorem witness_WaitSuccessEdge :
    (commandWait 4 2 .low).Legal ∧ (commandWait 4 2 .low).wait = some ⟨.low, 4⟩ ∧ (commandWait 4 2 .low).pins.rst = false ∧
      (commandWait 4 2 .low).k.toNat + 1 < usToCycles (commandWait 4 2 .low).cyclesPerUs 4 ∧
      3 ≤ (commandWait 4 2 .low).k.toNat + 1 ∧
      shiftWindow (commandWait 4 2 .low).win (commandWait 4 2 .low).sample = fullWindow .low ∧
      seen (·.phase) (step (commandWait 4 2 .low)) = some .idle ∧
      seen (·.phase) (step (waiting .hsAwaitSensorHigh 98 .high base)) = some .hsAwaitAckLow ∧
      seen (·.phase) (step (waiting .frWaitLow 498 .low base)) = some .frWaitHigh ∧
      seen (·.phase) (step { waiting .frWaitHigh 2 .high base with bitidx := 39 }) = some .validate := by
  decide

theorem witness_TimeoutIsRecordedAndEndsTheCommand :
    (inPhase .waitCmd base).Inv ∧ (inPhase .waitCmd base).wait = some ⟨.low, 0⟩ ∧
      (inPhase .waitCmd base).pins.rst = false ∧ usToCycles 1 0 ≤ (inPhase .waitCmd base).k.toNat + 1 ∧
      (waiting .hsAwaitSensorHigh 99 .low base).Inv ∧
      (waiting .hsAwaitSensorHigh 99 .low base).wait = some ⟨.high, 100⟩ ∧
      usToCycles 1 100 ≤ (waiting .hsAwaitSensorHigh 99 .low base).k.toNat + 1 ∧
      ({ waiting .frWaitLow 499 .high base with bitidx := 39 } : State).Inv ∧
      ({ waiting .frWaitLow 499 .high base with bitidx := 39 } : State).wait = some ⟨.low, 500⟩ ∧
      usToCycles 1 500 ≤ ({ waiting .frWaitLow 499 .high base with bitidx := 39 } : State).k.toNat + 1 :=
  ⟨inv_waitCmd, by decide, by decide, by decide, inv_sensorHigh, by decide, by decide, inv_frLow, by decide, by decide⟩

/-- A WAIT_CMD wait for Low just begun, at a line that has long been at `l`. -/
def freshWait (us : BitVec 16) (l : Level) : State :=
  lineHeld l 4 { inPhase .waitCmd base with waitCfg := us }

theorem noReset_freshWait (us : BitVec 16) (l : Level) (n : Nat) (h : n ≤ 5) : (freshWait us l).NoReset n :=
  noReset_mono h (noReset_of_replicate (n := 4) rfl rfl rfl)

theorem witness_WaitEndsAtFirstMatchOrAtItsTimeout :
    (freshWait 4 .low).Legal ∧ (freshWait 4 .low).wait = some ⟨.low, 4⟩ ∧ (freshWait 4 .low).k = 0 ∧
      (freshWait 4 .low).win = 0 ∧ 3 < usToCycles (freshWait 4 .low).cyclesPerUs 4 ∧ (freshWait 4 .low).MatchAt .low 3 ∧
      (∀ m, m < 3 → ¬ (freshWait 4 .low).MatchAt .low m) ∧ (freshWait 4 .low).NoReset 3 ∧
      (freshWait 3 .low).wait = some ⟨.low, 3⟩ ∧ (∀ m, m < 3 → ¬ (freshWait 3 .low).MatchAt .low m) ∧
      (freshWait 3 .low).NoReset (max 3 1) ∧
      (freshWait 0 .low).wait = some ⟨.low, 0⟩ ∧ (freshWait 0 .low).NoReset (max 0 1) ∧ 0 < max 0 1 ∧
      2 < max 3 1 ∧ (inPhase .frWaitLow base).phase ≠ .waitCmd ∧ (inPhase .frWaitLow base).wait = some ⟨.low, 500⟩ := by
  refine ⟨by decide, by decide, by decide, by decide, by decide, by unfold State.MatchAt; decide,
    by unfold State.MatchAt; decide, noReset_freshWait _ _ _ (by decide), by decide, by unfold State.MatchAt; decide,
    noReset_freshWait _ _ _ (by decide), by decide, noReset_freshWait _ _ _ (by decide), by decide, by decide,
    by decide, by decide⟩

theorem witness_LineIsSampledOnlyInInputMode :
    (inPhase .hsAwaitSensorHigh base).phase.isWait = true ∧ (inPhase .frWaitHigh base).phase.isWait = true ∧
      (inPhase .waitCmd base).phase.isWait = true ∧ base.phase.isWait = false ∧
      (inPhase .hsRelease base).phase.isWait = false ∧ (inPhase .validate base).phase.isWait = false := by
  decide

theorem witness_PinsFollowThePhase :
    base.phase = .idle ∧ (inPhase .hsStartLow base).phase = .hsStartLow ∧
      4 ≤ (inPhase .hsAwaitSensorHigh base).phase.code.toNat ∧ (inPhase .frWaitHigh base).phase.code.toNat ≤ 10 ∧
      (inPhase .waitCmd base).phase.code.toNat = 12 := by
  decide

theorem witness_AckHighSuccessBranchesOnBare :
    (waiting .hsAwaitAckHigh 2 .high base).phase = .hsAwaitAckHigh ∧ (waiting .hsAwaitAckHigh 2 .high base).Legal ∧
      (waiting .hsAwaitAckHigh 2 .high base).pins.rst = false ∧
      (waiting .hsAwaitAckHigh 98 .high base).k.toNat + 1 < 100 * (waiting .hsAwaitAckHigh 98 .high base).cyclesPerUs ∧
      3 ≤ (waiting .hsAwaitAckHigh 2 .high base).k.toNat + 1 ∧
      shiftWindow (waiting .hsAwaitAckHigh 2 .high base).win (waiting .hsAwaitAckHigh 2 .high base).sample = 0b111 ∧
      (waiting .hsAwaitAckHigh 2 .high base).bare = false ∧
      ({ waiting .hsAwaitAckHigh 2 .high base with bare := true } : State).bare = true ∧
      100 * (waiting .hsAwaitAckHigh 99 .high base).cyclesPerUs ≤ (waiting .hsAwaitAckHigh 99 .high base).k.toNat + 1 := by
  decide

theorem witness_FrWaitLowClassifiesTheBit :
    (waiting .frWaitLow 2 .low base).Legal ∧ (waiting .frWaitLow 2 .low base).phase = .frWaitLow ∧
      (waiting .frWaitLow 2 .low base).pins.rst = false ∧ 3 ≤ (waiting .frWaitLow 2 .low base).k.toNat + 1 ∧
      (waiting .frWaitLow 498 .low base).k.toNat + 1 < 500 * (waiting .frWaitLow 498 .low base).cyclesPerUs ∧
      shiftWindow (waiting .frWaitLow 2 .low base).win (waiting .frWaitLow 2 .low base).sample = 0b000 ∧
      50 * (waiting .frWaitLow 49 .low base).cyclesPerUs ≤ (waiting .frWaitLow 49 .low base).k.toNat + 1 ∧
      ¬ 50 * (waiting .frWaitLow 48 .low base).cyclesPerUs ≤ (waiting .frWaitLow 48 .low base).k.toNat + 1 ∧
      500 * (waiting .frWaitLow 499 .low base).cyclesPerUs ≤ (waiting .frWaitLow 499 .low base).k.toNat + 1 := by
  decide

theorem witness_FrWaitHighAccumulatesTheBit :
    let at39 := ({ waiting .frWaitHigh 2 .high base with bitidx := 39 } : State)
    (waiting .frWaitHigh 2 .high base).Legal ∧ (waiting .frWaitHigh 2 .high base).phase = .frWaitHigh ∧
      (waiting .frWaitHigh 2 .high base).pins.rst = false ∧ (waiting .frWaitHigh 2 .high base).bitidx.toNat + 1 < 40 ∧
      at39.bitidx.toNat < 40 ∧ at39.bitidx.toNat + 1 = 40 ∧ 3 ≤ at39.k.toNat + 1 ∧
      (waiting .frWaitHigh 498 .high base).k.toNat + 1 < 500 * (waiting .frWaitHigh 498 .high base).cyclesPerUs ∧
      shiftWindow at39.win at39.sample = 0b111 ∧
      500 * (waiting .frWaitHigh 499 .high base).cyclesPerUs ≤ (waiting .frWaitHigh 499 .high base).k.toNat + 1 := by
  decide

theorem witness_FortyBitsAssembleMsbFirst :
    (true :: List.replicate 39 false).length = 40 ∧ 0 < 40 ∧ 39 < 40 ∧ base.phase = .idle ∧
      (∃ t, exec .read base = .next t) ∧ (∃ t, exec .readBare base = .next t) :=
  ⟨by decide, by decide, by decide, by decide, ⟨_, rfl⟩, ⟨_, rfl⟩⟩

/-- FR_WAIT_LOW just begun at C = 1, with a High run of `d` samples ahead (its first three behind), then Low. -/
def highRun (d : Nat) : State :=
  { inPhase .frWaitLow base with
    sync1 := if d ≤ 4 then .low else .high
    sync2 := if d ≤ 3 then .low else .high
    pins := quietPorts (if d ≤ 5 then .low else .high)
    script := List.replicate (d - 6) (quietPorts .high) ++ List.replicate 8 (quietPorts .low) }

theorem noReset_highRun (d n : Nat) (h : n ≤ d - 6 + 9) : (highRun d).NoReset n := by
  have hs := noReset_of_script (s := highRun d) (fun p hp => by
    obtain hp | hp := List.mem_append.mp (show p ∈ List.replicate (d - 6) _ ++ List.replicate 8 _ from hp) <;>
      (rw [List.eq_of_mem_replicate hp]; rfl)) rfl
  have hl : (highRun d).script.length = d - 6 + 8 := by simp [highRun]
  rw [hl] at hs
  exact noReset_mono h hs

theorem witness_BitIsClassifiedByItsHighRun :
    (highRun 50).Legal ∧ (highRun 50).phase = .frWaitLow ∧ (highRun 50).k = 0 ∧ (highRun 50).win = 0 ∧
      (3 ≤ 3 ∧ 50 < 500 * (highRun 50).cyclesPerUs) ∧
      (∀ j, 0 ≤ j → j < 3 → (highRun 3).sampleAt j = .low) ∧ (highRun 3).NoReset 3 ∧
      (∀ j, j < 49 - 3 → (highRun 49).sampleAt j = .high) ∧ (∀ j, 49 - 3 ≤ j → j < 49 → (highRun 49).sampleAt j = .low) ∧
      (highRun 49).NoReset 49 ∧
      (∀ j, j < 50 - 3 → (highRun 50).sampleAt j = .high) ∧ (∀ j, 50 - 3 ≤ j → j < 50 → (highRun 50).sampleAt j = .low) ∧
      (highRun 50).NoReset 50 :=
  ⟨by decide, by decide, by decide, by decide, by decide, by decide, noReset_highRun 3 3 (by decide),
    by decide +kernel, by decide +kernel, noReset_highRun 49 49 (by decide), by decide +kernel, by decide +kernel,
    noReset_highRun 50 50 (by decide)⟩

theorem witness_ValidatePhaseRecordsTheVerdict :
    (∀ hi lo, (framed hi lo (inPhase .validate base)).Legal ∧ (framed hi lo (inPhase .validate base)).phase = .validate ∧
      (framed hi lo (inPhase .validate base)).pins.rst = false) ∧
      validate 0x03 0xE8 0x03 0x20 0x0E = .ok 1000 800 ∧ validate 0x03 0xE9 0x03 0x20 0x0F = .humidityOutOfRange ∧
      validate 0x03 0xE8 0x03 0x21 0x0F = .temperatureOutOfRange ∧ validate 0x02 0x8C 0x01 0x01 0x91 = .checksumMismatch :=
  ⟨fun _ _ => ⟨⟨rfl, rfl⟩, rfl, rfl⟩, by decide, by decide, by decide, by decide⟩

theorem witness_ValidateCommandCompletesOneEdgeAfterAccept :
    (framed 0x028C0101 0x90 base).Legal ∧ (framed 0x028C0101 0x90 base).phase = .idle ∧
      ((framed 0x028C0101 0x90 base).portsAt 1).rst = false ∧
      (framed 0x028C0101 0x90 base).verdict = .ok 652 257 ∧ (framed 0x028C0101 0x91 base).verdict = .checksumMismatch ∧
      (framed 0x03E90320 0x0F base).verdict = .humidityOutOfRange ∧
      (framed 0x03E80321 0x0F base).verdict = .temperatureOutOfRange := by
  decide

theorem witness_StepKeepsTheInvariant :
    base.Inv ∧ (inPhase .hsIdleHigh base).Inv ∧ ({ waiting .frWaitLow 499 .high base with bitidx := 39 } : State).Inv ∧
      (framed 0x028C0101 0x91 (inPhase .validate base)).Inv ∧ (inPhase .waitCmd base).Inv :=
  ⟨inv_base, inv_idleHigh, inv_frLow, inv_validate, inv_waitCmd⟩

theorem witness_PhaseFollowsTheTransitionTable :
    (∃ t, step resetting = .next t) ∧ (∃ t, step (writing 4 2 base) = .next t) ∧
      (∃ t, step (driving .hsRelease 1) = .next t) ∧ (∃ t, step (commandWait 4 2 .low) = .next t) ∧
      (∃ t, step (inPhase .validate base) = .next t) :=
  ⟨⟨_, rfl⟩, ⟨_, rfl⟩, ⟨_, rfl⟩, ⟨_, rfl⟩, ⟨_, rfl⟩⟩

theorem witness_EveryCommandEndsWithinItsBound :
    (inPhase .waitCmd base).Inv ∧ (inPhase .waitCmd base).busy = true ∧ (inPhase .waitCmd base).NoReset 1 ∧
      (inPhase .waitCmd base).edgesLeft = 1 ∧ (inPhase .waitCmd base).phase = .waitCmd ∧ (inPhase .waitCmd base).k = 0 ∧
      (inPhase .hsIdleHigh base).Inv ∧ (inPhase .hsIdleHigh base).busy = true ∧
      (framed 0x028C0101 0x91 (inPhase .validate base)).Inv :=
  ⟨inv_waitCmd, by decide, noReset_mono (by decide) (noReset_of_replicate (n := 4) rfl rfl rfl), by decide, by decide,
    by decide, inv_idleHigh, by decide, inv_validate⟩

/-- An idle block with the line at `l` and no reset for the next `n` cycles. -/
def idleLine (l : Level) (n : Nat) : State :=
  { base with pins := quietPorts l, script := List.replicate n (quietPorts l) }

theorem exec_idleLine (l : Level) (n : Nat) (i : Instr) (hi : i = .read ∨ i = .readBare) :
    ∃ u, exec i (idleLine l (n + 1)) = .next u ∧ u.script = List.replicate n (quietPorts l) ∧ u.pins = quietPorts l := by
  obtain rfl | rfl := hi <;> exact ⟨_, rfl, rfl, rfl⟩

theorem inv_idleLine (l : Level) (n : Nat) : (idleLine l n).Inv := by
  obtain ⟨h1, h2, h3, h4, h5, h6, h7, h8, h9, h10, h11, h12, h13, h14, h15, h16, h17⟩ := inv_base
  exact ⟨h1, h2, h3, h4, h5, h6, h7, h8, h9, h10, h11, h12, h13, h14, h15, h16, h17⟩

theorem witness_AcceptedReadEndsWithinTheLongestRead :
    (idleLine .high 50000).Inv ∧ (idleLine .high 50000).phase = .idle ∧
      longestRead (idleLine .high 50000).cyclesPerUs = 41717 ∧
      ∃ u, exec .read (idleLine .high 50000) = .next u ∧ u.NoReset 41717 := by
  obtain ⟨u, h, hs, hp⟩ := exec_idleLine .high 49999 .read (Or.inl rfl)
  exact ⟨inv_idleLine _ _, rfl, by decide, u, h,
    noReset_mono (by decide) (noReset_of_replicate hs rfl (by rw [hp]; rfl))⟩

/-- An idle block at C = 1 whose line is High until its cycle 1101 and Low from then on: with a READ accepted now, Low
in exactly the cycles of the High-wait. -/
def highThenLow : State :=
  { base with
    pins := quietPorts .high
    script := List.replicate 1101 (quietPorts .high) ++ List.replicate 200 (quietPorts .low) }

theorem witness_StuckLowReadTimesOutExactly :
    highThenLow.Legal ∧ highThenLow.phase = .idle ∧ highThenLow.cyclesPerUs = 1 ∧
      ∃ u, exec .readBare highThenLow = .next u ∧ u.NoReset (1200 * 1 + 1) ∧ (u.portsAt 0).lineIn = .high ∧
        ∀ j, 1100 * 1 + 1 ≤ j → j < 1200 * 1 + 1 → (u.portsAt j).lineIn = .low := by
  obtain ⟨u, h, hs, hp⟩ : ∃ u, exec .readBare highThenLow = .next u ∧
      u.script = List.replicate 1100 (quietPorts .high) ++ List.replicate 200 (quietPorts .low) ∧
      u.pins = quietPorts .high := ⟨_, rfl, rfl, rfl⟩
  refine ⟨⟨rfl, rfl⟩, rfl, rfl, u, h, ?_, by rw [State.portsAt, hp]; rfl, fun j hlo hhi => ?_⟩
  · have hq : ∀ p ∈ u.script, p.rst = false := fun p hp => by
      rw [hs] at hp
      obtain hp | hp := List.mem_append.mp hp <;> (rw [List.eq_of_mem_replicate hp]; rfl)
    refine noReset_mono ?_ (noReset_of_script hq (by rw [hp]; rfl))
    rw [hs, List.length_append, List.length_replicate, List.length_replicate]
    decide
  · obtain ⟨i, rfl⟩ : ∃ i, j = 1100 + i + 1 := ⟨j - 1101, by omega⟩
    simp only [State.portsAt, hs]
    rw [List.getElem?_append_right (by rw [List.length_replicate]; omega), List.length_replicate, Nat.add_sub_cancel_left,
      List.getElem?_replicate, if_pos (by omega)]
    rfl

/-- `base` with other leavings of earlier commands, another line level now and in the synchronizer, and the host
clearing DONE meanwhile. -/
def leftover : State :=
  writing 0x08 2
    { lineHeld .low 4 base with
      ie := true, done := true, result := .timeout, elapsed := 7, waitCfg := 9, k := 5, win := 3, hc := 2, bitidx := 13,
      sr := 0x55, bare := true, data := ⟨1, 2⟩, errInfo := timeoutInfo .high .waitCmd 0 100, wlevel := .high }

/-- The states after accepting `i` from `base` and from `leftover`, a run of `n` edges, and all that is asked of them. -/
def Twins (i : Instr) (n : Nat) : Prop :=
  ∃ u u' v, exec i base = .next u ∧ exec i leftover = .next u' ∧ u.SameSamples u' n ∧ u'.sample ≠ u.sample ∧
    runSteps n u = .next v ∧ ∀ j w, j < n → runSteps j u = .next w → w.busy = true

theorem witness_AttemptDependsOnlyOnCommandRateAndSamples :
    base.Legal ∧ base.phase = .idle ∧ leftover.Legal ∧ leftover.phase = .idle ∧
      leftover.frameHi = base.frameHi ∧ leftover.frameLo = base.frameLo ∧
      Twins .read 2 ∧ Twins .readBare 2 ∧ Twins .validate 1 := by
  have ports : ∀ (i : Instr) (u u' : State), exec i base = .next u → exec i leftover = .next u' → ∀ j, j < 2 →
      (u'.portsAt j).rst = (u.portsAt j).rst := by
    intro i u u' h h' j hj
    cases i <;> cases h <;> cases h' <;> (match j, hj with | 0, _ => rfl | 1, _ => rfl)
  refine ⟨by decide, by decide, by decide, by decide, rfl, rfl,
    ⟨_, _, _, rfl, rfl, ⟨rfl, ports .read _ _ rfl rfl, ?_⟩, by decide, rfl, ?_⟩,
    ⟨_, _, _, rfl, rfl, ⟨rfl, ports .readBare _ _ rfl rfl, ?_⟩, by decide, rfl, ?_⟩,
    ⟨_, _, _, rfl, rfl, ⟨rfl, fun j hj => ports .validate _ _ rfl rfl j (by omega), ?_⟩, by decide, rfl, ?_⟩⟩
  iterate 2
    · intro j u v hj hu _ hw
      match j, hj with
      | 0, _ => cases hu; exact absurd hw (by decide)
      | 1, _ => cases hu; exact absurd hw (by decide)
    · intro j w hj hw
      match j, hj with
      | 0, _ => cases hw; rfl
      | 1, _ => cases hw; rfl
  · intro j u v hj hu _ hw
    match j, hj with
    | 0, _ => cases hu; exact absurd hw (by decide)
  · intro j w hj hw
    match j, hj with
    | 0, _ => cases hw; rfl

/-- Two waits of two states that take the same sample, the host's access and the line now being different. -/
theorem witness_SameSamples_in_a_wait :
    let s := freshWait 4 .low
    let t := writing 0x08 2 { s with pins := quietPorts .high, sync1 := .high }
    s.SameSamples t 1 ∧ s.phase.isWait = true := by
  refine ⟨⟨rfl, ?_, ?_⟩, by decide⟩
  · intro j hj
    match j, hj with
    | 0, _ => rfl
  · intro j u v hj hu hv _
    match j, hj with
    | 0, _ => cases hu; cases hv; rfl

theorem witness_RunningAttemptShowsNoResult :
    base.Legal ∧ base.phase = .idle ∧ ∃ u v, exec .read base = .next u ∧ runSteps 1 u = .next v ∧
      v.phase ≠ .validate ∧ ∀ j, j ≤ 1 → ∃ w, runSteps j u = .next w ∧ w.busy = true := by
  refine ⟨by decide, by decide, _, _, rfl, rfl, by decide, fun j hj => ?_⟩
  match j, hj with
  | 0, _ => exact ⟨_, rfl, rfl⟩
  | 1, _ => exact ⟨_, rfl, rfl⟩

/-- The edge by which a run comes to its VALIDATE clause: frame completion, from a state with the last bit to come. -/
theorem witness_RunningAttemptShowsNoResult_validate :
    seen (fun t => (t.phase, t.frameHi.toNat * 256 + t.frameLo.toNat, t.sr.toNat))
      (step { waiting .frWaitHigh 2 .high base with bitidx := 39, bitval := true, sr := 0x0146008048 }) =
      some (.validate, 0x028C010091, 0x028C010091) := by
  decide

theorem witness_DataIsWrittenOnlyByAnOkVerdict :
    seen (·.data) (step (framed 0x03E80320 0x0E (inPhase .validate base))) = some ⟨1000, 800⟩ ∧
      seen (·.data) (step { resetting with data := ⟨1, 2⟩ }) = some Reading.zero ∧
      seen (·.data) (step (writing 4 1 { base with data := ⟨1, 2⟩ })) = some Reading.zero ∧
      seen (·.data) (step (writing 4 2 { base with data := ⟨1, 2⟩ })) = some Reading.zero ∧
      seen (·.data) (step (writing 4 3 { base with data := ⟨1, 2⟩ })) = some Reading.zero := by
  decide

theorem witness_ElapsedIsWrittenOnlyByASuccess :
    (commandWait 4 2 .low).pins.rst = false ∧ (commandWait 4 2 .low).elapsed = 0 ∧
      seen (·.elapsed) (step (commandWait 4 2 .low)) = some 3 := by
  decide

theorem witness_FailedAttemptLeavesNoPartialResult :
    (waiting .hsAwaitSensorHigh 99 .low base).Inv ∧ (waiting .hsAwaitSensorHigh 99 .low base).pins.rst = false ∧
      (waiting .hsAwaitSensorHigh 99 .low base).phase.isReading = true ∧
      seen (·.phase) (step (waiting .hsAwaitSensorHigh 99 .low base)) = some .idle ∧
      (framed 0x028C0101 0x91 (inPhase .validate base)).Inv ∧
      seen (·.result) (step (framed 0x028C0101 0x91 (inPhase .validate base))) = some .checksumMismatch :=
  ⟨inv_sensorHigh, by decide, by decide, by decide, inv_validate, by decide⟩

end Sys2Proof.Tests
end

section
/-! The state of the block: what reset sets, what the pins show, and which edges write CTRL, DATA and ELAPSED. -/

namespace Sys2Proof.Machine

/-! ### Reset -/

theorem reading_word_zero : Reading.zero.word = 0 := by decide

theorem errInfo_word_zero : ErrInfo.zero.word = 0 := by decide

/-- Settles O5: the edge is `resetEdge`, and each of its fields is the reset table's value. -/
theorem resetEdgeSetsEveryRegister : Obligations.ResetEdgeSetsEveryRegister := by
  intro s hr
  refine ⟨resetEdge s, step_of_rst hr, rfl, rfl, rfl, rfl, rfl, rfl, rfl, rfl, rfl, ?_, rfl, ?_, rfl, rfl, rfl, rfl,
    rfl, rfl, rfl, rfl, rfl, rfl, rfl, rfl⟩
  · exact reading_word_zero
  · exact errInfo_word_zero

/-- Every word of the register space reads 0 in the reset state (20_memory.md R45). -/
theorem regValue_reset (idx : BitVec 4) : State.reset.regValue idx = 0 := by
  revert idx
  decide

/-- Settles O6: the fields by the definition of the reset state, the reads by `regValue_reset`. -/
theorem resetStateHoldsTheTableValues : Obligations.ResetStateHoldsTheTableValues :=
  ⟨rfl, rfl, rfl, rfl, rfl, rfl, rfl, rfl, rfl, regValue_reset, rfl, rfl, rfl⟩

/-- Settles O43: the reset state is idle, holds no result and all its counters and registers are 0. -/
theorem invariantHoldsAtReset : Obligations.InvariantHoldsAtReset where
  legal := ⟨rfl, rfl⟩
  busyHasNoResult := fun h => absurd rfl h
  doneHasResult := fun h => nomatch h
  errInfoOnlyOfTimeout := fun _ => rfl
  errInfoSite := fun h => nomatch h
  dataInRange := by decide
  noDataAfterRejection := fun _ => rfl
  holdBelowLength := fun h => nomatch h
  waitBelowTimeout := fun _ _ => .inl rfl
  windowOfThisWait := fun h => nomatch h
  readingHasNoFrame := fun h => nomatch h
  validatingHasNoData := fun h => nomatch h
  bitsCounted := by decide
  frameNotFull := fun h => nomatch h
  handshakeHasNoBits := fun h => nomatch h
  bareSkipsStartBit := fun h => nomatch h
  elapsedOfSuccess := .inl rfl

/-! ### The pins and the sample -/

/-- A wait is input mode with `line_out` held at High (10_state.md R20). -/
theorem pins_of_wait {s : State} (h : s.phase.isWait = true) : s.lineOe = false ∧ s.lineOut = .high := by
  have hne : s.phase ≠ .hsStartLow := by
    intro hp
    simp [hp] at h
  simp [State.lineOe, State.lineOut, h, hne]

/-- The wait phases by their codes (30_encoding.md R63). -/
theorem isWait_iff (p : Phase) :
    p.isWait = true ↔ (4 ≤ p.code.toNat ∧ p.code.toNat ≤ 10) ∨ p.code.toNat = 12 := by
  simp [Phase.isWait]

/-- Settles O33: the table's rows, the waits through `isWait`; both pins read nothing but `phase`. -/
theorem pinsFollowThePhase : Obligations.PinsFollowThePhase := by
  refine ⟨?_, ?_, ?_, ?_⟩
  · rintro s (h | h | h | h) <;> simp [State.lineOe, State.lineOut, h]
  · intro s h
    simp [State.lineOe, State.lineOut, h]
  · intro s h
    exact pins_of_wait ((isWait_iff s.phase).mpr h)
  · intro s t h
    simp [State.lineOe, State.lineOut, h]

/-- Settles O9: two edges move the sample two flip-flops back, to the line of the present cycle. -/
theorem sampleIsTheLineThreeCyclesEarlier : Obligations.SampleIsTheLineThreeCyclesEarlier :=
  fun _ _ hr h => sampleAt_run h hr 0

/-! ### CTRL -/

theorem ieAfter_of_write {s : State} (h : s.Writes 0) : s.ieAfter = s.pins.busWdata.getLsbD 0 := by
  obtain ⟨hwe, hidx⟩ := h
  simp [State.ieAfter, hwe, hidx]

theorem ieAfter_of_not_write {s : State} (h : ¬ s.Writes 0) : s.ieAfter = s.ie := by
  rw [State.ieAfter, if_neg]
  simpa [State.Writes] using h

/-- Settles O15: every legal edge leaves IE at `ieAfter` (`edgeCore_ie`). -/
theorem ctrlWriteTakesEffectInEveryPhase : Obligations.CtrlWriteTakesEffectInEveryPhase := by
  intro s hl hr
  have hie : (latch (edgeCore s)).ie = s.ieAfter := edgeCore_ie s
  exact ⟨latch (edgeCore s), step_of_legal hl hr, fun h => hie.trans (ieAfter_of_write h),
    fun h => hie.trans (ieAfter_of_not_write h)⟩

/-! ### The two parts of an edge and the registers no host can write -/

/-- DATA and ELAPSED are read-only to the host (20_memory.md R46). -/
@[simp] theorem hostWrite_data_elapsed (s c : State) (b : Bool) :
    (hostWrite s b c).data = c.data ∧ (hostWrite s b c).elapsed = c.elapsed := by
  unfold hostWrite
  repeat' split
  all_goals exact ⟨rfl, rfl⟩

@[simp] theorem acceptOf_elapsed (i : Instr) (s : State) : (acceptOf i s).elapsed = s.elapsed := by
  cases i <;> rfl

/-- Accepting a command keeps DATA, or sets it to 0 where the command is READ, READ_BARE or VALIDATE
(44_control.md R118). -/
theorem acceptOf_data (i : Instr) (s : State) :
    (acceptOf i s).data = s.data ∨
      ((acceptOf i s).data = Reading.zero ∧ (i = .read ∨ i = .readBare ∨ i = .validate)) := by
  cases i with
  | nop => exact .inl rfl
  | read => exact .inr ⟨rfl, .inl rfl⟩
  | readBare => exact .inr ⟨rfl, .inr (.inl rfl)⟩
  | validate => exact .inr ⟨rfl, .inr (.inr rfl)⟩
  | waitLow => exact .inl rfl
  | waitHigh => exact .inl rfl
  | reserved6 => exact .inl rfl
  | reserved7 => exact .inl rfl

/-- The phase's own rule for success keeps DATA, and ELAPSED as TWStep has just written it
(40_transition_waiter.md R71). -/
@[simp] theorem successStep_data_elapsed (s t : State) (e : Word) :
    (successStep s e t).1.data = t.data ∧ (successStep s e t).1.elapsed = t.elapsed := by
  unfold successStep
  cases s.phase <;> simp only [thenWait, ackHighDone, bitLowDone, bitHighDone, waitCmdDone] <;> (try split_ifs) <;>
    exact ⟨rfl, rfl⟩

@[simp] theorem recordVerdict_elapsed (v : Verdict) (s : State) : (recordVerdict v s).elapsed = s.elapsed := by
  cases v <;> rfl

/-- The control part writes DATA nowhere but in VALIDATE (43_validator.md R113). -/
theorem control_data_of_ne_validate {s : State} (hl : s.Legal) (h : s.phase ≠ .validate) :
    (controlStep s).1.data = s.data := by
  obtain hi | hd | ⟨w, hw⟩ | hv := phase_kinds hl.1
  · rw [control_of_idle hi]
  · obtain ⟨-, -, -, hdata⟩ := control_keeps_result (s := s) (by rw [control_of_drive hd])
    exact hdata
  · cases ho : s.waitOutcome w with
    | running k win => rw [control_of_running hw ho]
    | success e => simp [control_of_success hw ho]
    | timeout => rw [control_of_timeout hw ho]; rfl
  · exact absurd hv h

/-- The control part writes ELAPSED nowhere but at a wait's success, which writes its count
(40_transition_waiter.md R71). -/
theorem control_elapsed_of_change {s : State} (hl : s.Legal) (h : (controlStep s).1.elapsed ≠ s.elapsed) :
    ∃ w e, s.wait = some w ∧ s.waitOutcome w = .success e ∧ (controlStep s).1.elapsed = e := by
  obtain hi | hd | ⟨w, hw⟩ | hv := phase_kinds hl.1
  · rw [control_of_idle hi] at h
    exact absurd rfl h
  · rw [control_of_drive hd] at h
    refine absurd ?_ h
    cases s.phase <;> simp only <;> split_ifs <;> rfl
  · cases ho : s.waitOutcome w with
    | running k win => rw [control_of_running hw ho] at h; exact absurd rfl h
    | success e => exact ⟨w, e, hw, ho, by simp [control_of_success hw ho]⟩
    | timeout => rw [control_of_timeout hw ho] at h; exact absurd rfl h
  · rw [control_of_validate hv, recordVerdict_elapsed] at h
    exact absurd rfl h

/-- Without `rst`, ELAPSED is what the control part leaves: no accept and no host write reaches it. -/
theorem edgeCore_elapsed (s : State) : (edgeCore s).elapsed = (controlStep s).1.elapsed := by
  unfold edgeCore
  cases s.commandWord with
  | none => exact (hostWrite_data_elapsed _ _ _).2
  | some v =>
    by_cases hp : s.phase = .idle
    · simp [hp, control_of_idle hp]
    · simp [hp]

/-! ### ELAPSED -/

/-- A success counts the samples its wait took, at least 3 and below the timeout (40_transition_waiter.md R71). -/
theorem waitOutcome_success_count {s : State} {w : Wait} {e : Word} (h : s.waitOutcome w = .success e) :
    e.toNat = s.k.toNat + 1 ∧ 3 ≤ e.toNat ∧ e.toNat < usToCycles s.cyclesPerUs w.timeoutUs := by
  obtain ⟨hlt, hthree, -, he⟩ := twOutcome_success_iff.mp h
  have hcount : e.toNat = s.k.toNat + 1 := he ▸ toNat_count (cyclesPerUs_bounds s).2 hlt
  omega

/-- Settles O51: only the control part writes ELAPSED, and only at the success of a wait. -/
theorem elapsedIsWrittenOnlyByASuccess : Obligations.ElapsedIsWrittenOnlyByASuccess := by
  intro s t hr h hne
  obtain ⟨hr', -⟩ | ⟨-, hl, rfl⟩ := step_eq_next_iff.mp h
  · simp [hr] at hr'
  rw [edgeState_eq] at hne ⊢
  have helapsed : (latch (edgeCore s)).elapsed = (controlStep s).1.elapsed := edgeCore_elapsed s
  rw [helapsed] at hne ⊢
  obtain ⟨w, e, hw, ho, he⟩ := control_elapsed_of_change hl hne
  obtain ⟨hcount, hthree, hlt⟩ := waitOutcome_success_count ho
  have hbusy : s.phase ≠ .idle := by
    intro hp
    simp [control_of_idle hp] at hne
  have hphase : (latch (edgeCore s)).phase = s.successPhase := by
    rw [latch_phase, edgeCore_busy hbusy]
    show (controlStep s).1.phase = _
    rw [control_phase_of_wait hw, ho]
  exact ⟨w, hw, he ▸ hcount, he ▸ hthree, he ▸ hlt, hphase⟩

/-! ### DATA -/

/-- An OK verdict carries the tenths of the frame, both within their upper bounds (43_validator.md R106, R108). -/
theorem validate_ok_bounds {b1 b2 b3 b4 b5 : Byte} {h t : BitVec 16} (hv : validate b1 b2 b3 b4 b5 = .ok h t) :
    h.toNat ≤ 1000 ∧ t.toNat ≤ 800 := by
  simp only [validate] at hv
  split_ifs at hv with hsum hhum htemp
  obtain ⟨rfl, rfl⟩ := Verdict.ok.inj hv
  simp only [BitVec.toNat_ofNat]
  omega

/-- A verdict that changes DATA is OK, and DATA is its Reading (43_validator.md R113). -/
theorem recordVerdict_ok_of_data_ne {v : Verdict} {s : State} (h : (recordVerdict v s).data ≠ s.data) :
    (recordVerdict v s).result = .ok ∧
      v = .ok (recordVerdict v s).data.humRaw (recordVerdict v s).data.tempRaw := by
  cases v with
  | ok hum temp => exact ⟨rfl, rfl⟩
  | checksumMismatch => exact absurd rfl h
  | humidityOutOfRange => exact absurd rfl h
  | temperatureOutOfRange => exact absurd rfl h

/-- A command with an accept, written to an idle block, is accepted (44_control.md R118). -/
theorem accepts_of_command {s : State} {v : Word} {i : Instr} (hr : s.pins.rst = false) (hp : s.phase = .idle)
    (hc : s.commandWord = some v) (hi : decodeWord v = i) (hop : 1 ≤ i.opcode.toNat ∧ i.opcode.toNat ≤ 5) :
    s.accepts = some i := by
  subst hi
  simp [State.accepts, hr, hp, hc, hop]

/-- An edge of an idle block that changes DATA accepts READ, READ_BARE or VALIDATE. -/
theorem edgeCore_data_of_idle {s : State} (hr : s.pins.rst = false) (hp : s.phase = .idle)
    (h : (edgeCore s).data ≠ s.data) :
    (edgeCore s).data = Reading.zero ∧
      (s.accepts = some .read ∨ s.accepts = some .readBare ∨ s.accepts = some .validate) := by
  cases hc : s.commandWord with
  | none => simp [edgeCore_idle_noCommand hp hc] at h
  | some v =>
    have hcore : edgeCore s = acceptOf (decodeWord v) s := by simp [edgeCore, hc, hp]
    rw [hcore] at h ⊢
    obtain hkeep | ⟨hzero, hi⟩ := acceptOf_data (decodeWord v) s
    · exact absurd hkeep h
    · exact ⟨hzero, hi.imp (accepts_of_command hr hp hc · (by decide))
        (Or.imp (accepts_of_command hr hp hc · (by decide)) (accepts_of_command hr hp hc · (by decide)))⟩

/-- An edge of a busy block that changes DATA leaves VALIDATE with an OK verdict. -/
theorem edgeCore_data_of_busy {s : State} (hl : s.Legal) (hp : s.phase ≠ .idle) (h : (edgeCore s).data ≠ s.data) :
    s.phase = .validate ∧ (edgeCore s).result = .ok ∧
      s.verdict = .ok (edgeCore s).data.humRaw (edgeCore s).data.tempRaw := by
  rw [edgeCore_busy hp] at h ⊢
  have hv : s.phase = .validate := by
    by_contra hv
    exact h (control_data_of_ne_validate hl hv)
  rw [control_of_validate hv] at h ⊢
  exact ⟨hv, recordVerdict_ok_of_data_ne h⟩

/-- Settles O50: by reset, or by whether the block was idle before the edge. -/
theorem dataIsWrittenOnlyByAnOkVerdict : Obligations.DataIsWrittenOnlyByAnOkVerdict := by
  intro s t h hne
  obtain ⟨hr, rfl⟩ | ⟨hr, hl, rfl⟩ := step_eq_next_iff.mp h
  · exact .inr ⟨rfl, .inl hr⟩
  rw [edgeState_eq] at hne ⊢
  by_cases hp : s.phase = .idle
  · obtain ⟨hzero, hacc⟩ := edgeCore_data_of_idle hr hp hne
    exact .inr ⟨hzero, .inr hacc⟩
  · obtain ⟨hv, hok, hverdict⟩ := edgeCore_data_of_busy hl hp hne
    obtain ⟨hhum, htemp⟩ := validate_ok_bounds hverdict
    exact .inl ⟨hr, hv, hok, hverdict, hhum, htemp⟩

end Sys2Proof.Machine
end

section
/-! The host register space: what a bus read shows, what a bus write changes in IDLE, and which accesses change
nothing (20_memory.md). -/

namespace Sys2Proof.Machine

/-! ### Accesses that change nothing -/

/-- Without a write, the edge is the control part, which does not see the bus (20_memory.md R45). -/
theorem edgeCore_setPins_of_noWrite {s : State} {p : Ports} (hs : s.pins.busWe = false) (hp : p.busWe = false) :
    edgeCore { s with pins := p } = { edgeCore s with pins := p } := by
  rw [edgeCore_noWrite hs, edgeCore_noWrite (s := { s with pins := p }) hp, control_setPins]

/-- The edge sees of its cycle's inputs `rst`, `line_in` and what part (2) does with the bus. -/
theorem step_setPins_of_edgeCore {s : State} {p : Ports} (hrst : p.rst = s.pins.rst) (hline : p.lineIn = s.pins.lineIn)
    (hcore : edgeCore { s with pins := p } = { edgeCore s with pins := p }) : step { s with pins := p } = step s := by
  cases hr : s.pins.rst with
  | true => rw [step_of_rst hr, step_of_rst (s := { s with pins := p }) (hrst.trans hr)]; rfl
  | false =>
    obtain ⟨-, hpins, -⟩ := edgeCore_inputs s
    rw [step_of_noRst hr, step_of_noRst (s := { s with pins := p }) (hrst.trans hr), edgeState_eq, edgeState_eq, hcore,
      latch_setPins _ _ (by rw [hline, hpins])]
    rfl

/-- Settles O11: with `bus_we` low the control part is the whole edge, whatever the address and data. -/
theorem readsHaveNoSideEffect : Obligations.ReadsHaveNoSideEffect :=
  fun _ _ _ hwe => step_setPins_of_edgeCore rfl rfl (edgeCore_setPins_of_noWrite hwe hwe)

/-- Settles O12: edge and read see the address through `wordIndex` alone. -/
theorem lowAddressBitsAreIgnored : Obligations.LowAddressBitsAreIgnored := by
  intro s low
  have hidx := wordIndex_append (wordIndex s.pins.busAddr) low
  exact ⟨step_setPins s _ rfl rfl rfl hidx rfl, congrArg s.regValue hidx⟩

/-! ### Writes -/

theorem commandWord_of_ne_cmd {s : State} (h : wordIndex s.pins.busAddr ≠ 1) : s.commandWord = none :=
  if_neg (by simpa using fun _ => h)

/-- The write table for an idle block, every register in one record (20_memory.md R46). -/
theorem hostWrite_of_idle {s : State} (hp : s.phase = .idle) (hwe : s.pins.busWe = true)
    (hcmd : wordIndex s.pins.busAddr ≠ 1) :
    hostWrite s false s =
      { s with
        ie := if wordIndex s.pins.busAddr = 0 then s.pins.busWdata.getLsbD 0 else s.ie
        done := if wordIndex s.pins.busAddr = 2 ∧ s.pins.busWdata.getLsbD 1 = true then false else s.done
        frameHi := if wordIndex s.pins.busAddr = 3 then s.pins.busWdata else s.frameHi
        frameLo := if wordIndex s.pins.busAddr = 4 then s.pins.busWdata.extractLsb' 0 8 else s.frameLo
        waitCfg := if wordIndex s.pins.busAddr = 8 then s.pins.busWdata.extractLsb' 0 16 else s.waitCfg } := by
  simp only [hostWrite, if_pos hp, if_pos hwe]
  generalize wordIndex s.pins.busAddr = idx at hcmd ⊢
  obtain rfl | rfl | rfl | rfl | rfl | ⟨h0, h2, h3, h4, h8, h0', h2', h3', h4', h8'⟩ := wordIndex_cases idx hcmd
  · simp
  · simp [doneAfterStatusWrite]
  · simp
  · simp
  · simp
  · simp only [h0', h2', h3', h4', h8', false_and, if_false]

/-- While busy, part (2) of an edge writes CTRL and STATUS only (20_memory.md R46). -/
theorem hostWrite_of_busy {s : State} (c : State) (setDone : Bool) (hp : s.phase ≠ .idle)
    (hctrl : wordIndex s.pins.busAddr ≠ 0) (hstatus : wordIndex s.pins.busAddr ≠ 2) : hostWrite s setDone c = c := by
  simp only [hostWrite, hp, if_false]
  split_ifs
  · split
    · next h => exact absurd (BitVec.eq_of_toNat_eq h) hctrl
    · next h => exact absurd (BitVec.eq_of_toNat_eq h) hstatus
    all_goals rfl
  · rfl

/-- A busy edge is its control part, whether the host writes CMD or another word (44_control.md R119). -/
theorem edgeCore_of_busy_write {s : State} (hp : s.phase ≠ .idle) (hctrl : wordIndex s.pins.busAddr ≠ 0)
    (hstatus : wordIndex s.pins.busAddr ≠ 2) : edgeCore s = (controlStep s).1 := by
  unfold edgeCore
  cases s.commandWord with
  | some v => exact if_neg hp
  | none => exact hostWrite_of_busy _ _ hp hctrl hstatus

/-- Settles O13: an idle block is changed by the write alone, which `hostWrite_of_idle` gives register by register. -/
theorem idleBusWritesTakeEffect : Obligations.IdleBusWritesTakeEffect := by
  intro s hl hp hr hwe hcmd
  have hcore : edgeCore s = _ :=
    (edgeCore_idle_noCommand hp (commandWord_of_ne_cmd hcmd)).trans (hostWrite_of_idle hp hwe hcmd)
  refine ⟨latch (edgeCore s), step_of_legal hl hr, inputsAdvance_edge s, ?_⟩
  rw [hcore]
  exact ⟨rfl, rfl, rfl, rfl, rfl, hp, rfl, rfl, rfl, rfl, rfl, rfl, rfl, rfl, rfl, rfl, rfl, rfl⟩

/-- Settles O14: with and without the write the edge is the control part. -/
theorem busyWritesAreIgnoredButCtrlAndStatus : Obligations.BusyWritesAreIgnoredButCtrlAndStatus :=
  fun _ hp hr hctrl hstatus => step_eq_withoutWrite hr (edgeCore_of_busy_write hp hctrl hstatus)

/-! ### Reads -/

/-- STATUS as a sum of its fields at their positions (10_state.md R24). -/
theorem statusWord_toNat (s : State) :
    s.statusWord.toNat = s.busy.toNat + 2 * s.done.toNat + 16 * s.result.code.toNat + 256 * s.phase.code.toNat +
      4096 * s.bare.toNat + 65536 * s.bitidx.toNat := by
  rw [State.statusWord, BitVec.toNat_setWidth_of_le (by decide)]
  simp only [append_toNat, BitVec.toNat_ofBool, BitVec.ofNat_eq_ofNat, BitVec.toNat_ofNat]
  omega

/-- DATA as a sum of its halves (10_state.md R27). -/
theorem reading_word_toNat (r : Reading) : r.word.toNat = 65536 * r.tempRaw.toNat + r.humRaw.toNat := by
  rw [Reading.word, BitVec.toNat_setWidth_of_le (by decide)]
  simp only [append_toNat]
  omega

/-- ERRINFO as a sum of its fields at their positions (10_state.md R29, 30_encoding.md R64). -/
theorem errInfo_word_toNat (e : ErrInfo) :
    e.word.toNat = 65536 * e.timeoutUs.toNat + 256 * e.bitidx.toNat + 16 * e.site.code.toNat +
      (levelBit e.expLevel).toNat := by
  rw [ErrInfo.word, BitVec.toNat_setWidth_of_le (by decide)]
  simp only [append_toNat, BitVec.ofNat_eq_ofNat, BitVec.toNat_ofNat]
  omega

/-- An unmapped word reads 0 (20_memory.md R45). -/
theorem regValue_of_unmapped (s : State) {idx : BitVec 4} (h : 9 ≤ idx.toNat) : s.regValue idx = 0 := by
  unfold State.regValue
  split
  case h_10 => rfl
  all_goals omega

/-- Settles O10: the words packed from fields by their sums, the one-register words by their widths. -/
theorem registerReadsShowTheirFields : Obligations.RegisterReadsShowTheirFields := by
  intro s
  refine ⟨rfl, ?_, rfl, statusWord_toNat s, rfl, ?_, reading_word_toNat s.data, rfl, errInfo_word_toNat s.errInfo, ?_,
    fun _ => regValue_of_unmapped s⟩
  · exact (BitVec.toNat_setWidth_of_le (by decide)).trans (BitVec.toNat_ofBool _)
  · exact BitVec.toNat_setWidth_of_le (by decide)
  · exact BitVec.toNat_setWidth_of_le (by decide)

end Sys2Proof.Machine
end

section
/-! The command words and the coded registers: what the decoder reads from a word and from bytes, on which codes an
edge faults, and the words of ERRINFO. -/

namespace Sys2Proof

/-! ### The opcode map -/

/-- The opcode map reads every command back from its OP (30_encoding.md R58). -/
@[simp] theorem decodeOp_opcode (i : Instr) : decodeOp i.opcode = i := by
  cases i <;> rfl

/-- Every OP is the OP of the command it names, so the map is total and exact (30_encoding.md R60). -/
@[simp] theorem opcode_decodeOp (op : BitVec 3) : (decodeOp op).opcode = op := by
  revert op
  decide

theorem opcode_injective : Function.Injective Instr.opcode :=
  Function.LeftInverse.injective decodeOp_opcode

/-- A word names the command whose OP it shows in bits 2:0 (30_encoding.md R56, R60). -/
theorem decodeWord_eq_iff (v : Word) (i : Instr) : decodeWord v = i ↔ v.extractLsb' 0 3 = i.opcode := by
  rw [decodeWord, ← opcode_injective.eq_iff, opcode_decodeOp]

/-! ### Words and bytes -/

/-- The bytes of a word decode as the word does. -/
theorem decodeBytes_bytesOfWord (v : Word) : decodeBytes (bytesOfWord v) = .ok (decodeWord v) := by
  rw [bytesOfWord, decodeBytes, wordOfBytes_bytes]

/-- A command is four bytes, no more and no fewer (30_encoding.md R60). -/
theorem decodeBytes_ok_iff_length (bytes : List Byte) : (∃ i, decodeBytes bytes = .ok i) ↔ bytes.length = 4 := by
  constructor
  · rintro ⟨i, h⟩
    unfold decodeBytes at h
    split at h
    · rfl
    · cases h
  · intro h
    obtain ⟨b0, b1, b2, b3, rfl⟩ := List.length_eq_four.mp h
    exact ⟨_, rfl⟩

/-- Settles O1: an encoded word shows the command's OP whatever the ignored bits hold, and its bytes give the word
back. -/
theorem encodedCommandsDecodeToThemselves : Obligations.EncodedCommandsDecodeToThemselves := by
  intro i ignored _
  have hword : decodeWord (encodeWith ignored i) = i := (decodeWord_eq_iff _ i).mpr (encodeWith_op ignored i)
  exact ⟨hword, by rw [decodeBytes_bytesOfWord, hword]⟩

/-- Settles O2: the opcode map and `opcode` are inverse to each other, and the decoder asks for four bytes. -/
theorem everyWordNamesExactlyOneCommand : Obligations.EveryWordNamesExactlyOneCommand :=
  ⟨decodeWord_eq_iff, fun _ _ h => opcode_injective h, decodeBytes_ok_iff_length⟩

/-- Settles O3: ten words, each decoded by evaluation. -/
theorem opcodeMapWordsDecode : Obligations.OpcodeMapWordsDecode := by
  unfold Obligations.OpcodeMapWordsDecode
  decide

end Sys2Proof

namespace Sys2Proof.Machine

/-! ### Codes never taken -/

theorem codeFault_eq_unusedPhaseCode_iff {s : State} :
    s.codeFault = some .unusedPhaseCode ↔ s.phase.taken = false := by
  unfold State.codeFault
  cases s.phase.taken <;> cases s.result.produced <;> simp

theorem codeFault_eq_unusedResultCode_iff {s : State} :
    s.codeFault = some .unusedResultCode ↔ s.phase.taken = true ∧ s.result.produced = false := by
  unfold State.codeFault
  cases s.phase.taken <;> cases s.result.produced <;> simp

/-- An edge faults exactly with the fault of the codes the state holds (93_implementation_defined.md item 11). -/
theorem finish_eq_fault_iff {s t : State} {f : Fault} : finish s t = .fault f ↔ s.codeFault = some f := by
  unfold finish
  cases s.codeFault <;> simp

theorem finish_ne_refused (s t : State) (r : Refusal) : finish s t ≠ .refused r := by
  unfold finish
  cases s.codeFault <;> simp

/-- The model has a meaning for every edge, with and without `rst` (44_control.md R117). -/
theorem step_ne_refused (s : State) (r : Refusal) : step s ≠ .refused r := by
  cases hr : s.pins.rst with
  | true => simp [step_of_rst hr]
  | false => rw [step_of_noRst hr]; exact finish_ne_refused _ _ r

/-- Settles O7: a reset edge always has a next state, and any other edge ends as `finish` says of the state's codes. -/
theorem stepFaultsExactlyOnUnusedCodes : Obligations.StepFaultsExactlyOnUnusedCodes := by
  refine fun s => ⟨fun hr => ⟨_, step_of_rst hr⟩, fun hr => ?_, step_ne_refused s⟩
  rw [step_of_noRst hr]
  refine ⟨?_, ?_, ?_⟩
  · rw [finish_eq_fault_iff, codeFault_eq_unusedPhaseCode_iff]
  · rw [finish_eq_fault_iff, codeFault_eq_unusedResultCode_iff]
  · simp [finish_eq_next_iff]

/-! ### ERRINFO -/

/-- A field cut out of ERRINFO, as the digits of the sum of its fields (30_encoding.md R64). -/
theorem errInfo_word_extract_toNat (e : ErrInfo) (start len : Nat) :
    (e.word.extractLsb' start len).toNat =
      (65536 * e.timeoutUs.toNat + 256 * e.bitidx.toNat + 16 * e.site.code.toNat + (levelBit e.expLevel).toNat) /
        2 ^ start % 2 ^ len := by
  rw [BitVec.extractLsb'_toNat, errInfo_word_toNat, Nat.shiftRight_eq_div_pow]

/-- The fields of ERRINFO and its reserved bits, at their bit positions (30_encoding.md R64). -/
theorem errInfo_word_fields (e : ErrInfo) :
    e.word.extractLsb' 16 16 = e.timeoutUs ∧ e.word.extractLsb' 14 2 = 0 ∧ e.word.extractLsb' 8 6 = e.bitidx ∧
      e.word.extractLsb' 4 4 = e.site.code ∧ e.word.extractLsb' 1 3 = 0 ∧
      e.word.extractLsb' 0 1 = levelBit e.expLevel := by
  have htimeout := e.timeoutUs.isLt
  have hbitidx := e.bitidx.isLt
  have hsite := e.site.code.isLt
  have hlevel := (levelBit e.expLevel).isLt
  refine ⟨?_, ?_, ?_, ?_, ?_, ?_⟩ <;>
    (apply BitVec.eq_of_toNat_eq
     simp only [errInfo_word_extract_toNat, BitVec.ofNat_eq_ofNat, BitVec.toNat_ofNat]
     omega)

/-- Settles O34: the packing by `errInfo_word_fields`, the eight words of the table by evaluation. -/
theorem errInfoWordsOfTheTable : Obligations.ErrInfoWordsOfTheTable := by
  refine ⟨errInfo_word_fields, ?_⟩
  decide

end Sys2Proof.Machine
end

section
/-! The Transition Waiter: the edge of a wait by its outcome, the window as the last three samples, and a whole wait
from its start to its end (40_transition_waiter.md). -/

namespace Sys2Proof.Machine

/-! ### One edge of a wait -/

theorem isWait_of_wait {s : State} {w : Wait} (h : s.wait = some w) : s.phase.isWait = true := by
  rw [← wait_isSome, h]
  rfl

theorem busy_of_wait {s : State} {w : Wait} (h : s.wait = some w) : s.phase ≠ .idle := by
  intro hp
  simpa [hp] using isWait_of_wait h

/-- CONTINUE: the edge takes its sample and lets the host write CTRL and STATUS (40_transition_waiter.md R71). -/
theorem edgeCore_of_running {s : State} {w : Wait} {k : Word} {win : BitVec 3} (h : s.wait = some w)
    (ho : s.waitOutcome w = .running k win) :
    edgeCore s = { s with k := k, win := win, ie := s.ieAfter, done := s.doneAfter } := by
  rw [edgeCore_busy (busy_of_wait h), control_of_running h ho]
  rfl

/-- TIMEOUT: the edge raises it; the host reaches CTRL alone, for the set of DONE wins (44_control.md R121). -/
theorem edgeCore_of_timeout {s : State} {w : Wait} (h : s.wait = some w) (ho : s.waitOutcome w = .timeout) :
    edgeCore s = { raiseTimeout w.level s.phase s.bitidx w.timeoutUs s with ie := s.ieAfter } := by
  rw [edgeCore_busy (busy_of_wait h), control_of_timeout h ho]
  rfl

/-- SUCCESS: the edge writes ELAPSED and runs the phase's own rule (40_transition_waiter.md R71). -/
theorem edgeCore_of_success {s : State} {w : Wait} {e : Word} (h : s.wait = some w)
    (ho : s.waitOutcome w = .success e) :
    edgeCore s =
      { (successStep s e { s with elapsed := e }).1 with
        ie := s.ieAfter
        done := if (successStep s e { s with elapsed := e }).2 then true else s.doneAfter } := by
  rw [edgeCore_busy (busy_of_wait h), control_of_success h ho]

/-- The phases' own rules for success: WAIT_CMD completes, the handshake goes to its next wait, and FR measures a bit,
then accumulates it and goes to the next one or to VALIDATE (44_control.md R122). -/
theorem successStep_cases {s t : State} {e : Word} (h : s.phase.isWait = true) (ht : t = { s with elapsed := e }) :
    (s.phase = .waitCmd ∧ successStep s e t = (complete .ok t, true)) ∨
    (s.phase ≠ .waitCmd ∧ s.phase.isFrame = false ∧ s.successPhase.isWait = true ∧
      successStep s e t = (startWait s.successPhase t, false)) ∨
    (s.phase = .frWaitLow ∧
      successStep s e t = (startWait .frWaitHigh { t with bitval := classify s.cyclesPerUs e }, false)) ∨
    (s.phase = .frWaitHigh ∧ s.bitidx.toNat + 1 < 40 ∧
      successStep s e t =
        (startWait .frWaitLow { t with sr := shiftIn s.sr s.bitval, bitidx := s.bitidx + 1 }, false)) ∨
    (s.phase = .frWaitHigh ∧ ¬ s.bitidx.toNat + 1 < 40 ∧
      successStep s e t =
        (frameComplete (shiftIn s.sr s.bitval) { t with sr := shiftIn s.sr s.bitval, bitidx := s.bitidx + 1 },
          false)) := by
  subst ht
  cases hp : s.phase with
  | hsAwaitSensorHigh | hsAwaitAckLow | hsAwaitStartLow | hsAwaitStartHigh =>
    simp [successStep, State.successPhase, hp, thenWait]
  | hsAwaitAckHigh =>
    cases hb : s.bare <;> simp [successStep, State.successPhase, hp, ackHighDone, hb]
  | frWaitLow =>
    right; right; left
    simp [successStep, hp, bitLowDone, State.cyclesPerUs]
  | frWaitHigh =>
    right; right; right
    by_cases hlast : s.bitidx.toNat + 1 < 40
    · left
      simp [successStep, hp, bitHighDone, hlast]
    · right
      simp [successStep, hp, bitHighDone, hlast]
  | waitCmd => simp [successStep, hp, waitCmdDone]
  | idle | hsIdleHigh | hsStartLow | hsRelease | validate | unused13 | unused14 | unused15 => simp [hp] at h

/-- Settles O28: the outcome is CONTINUE, whose edge is `edgeCore_of_running`. -/
theorem waitEdgeWithoutEndOnlyCounts : Obligations.WaitEdgeWithoutEndOnlyCounts := by
  intro s w hl hw hr hlt hno
  have ho : s.waitOutcome w = .running _ _ := twOutcome_running_iff.mpr ⟨hlt, hno, rfl, rfl⟩
  refine ⟨latch (edgeCore s), step_of_legal hl hr, inputsAdvance_edge s, ?_⟩
  rw [edgeCore_of_running hw ho]
  exact ⟨toNat_count (cyclesPerUs_bounds s).2 hlt, shiftWindow_toNat s.win s.sample, rfl, rfl, rfl, rfl, rfl, rfl, rfl,
    rfl, rfl, rfl, rfl, rfl, rfl, rfl, rfl, rfl⟩

/-- Settles O29: the outcome is SUCCESS, and `successStep_cases` says what the phase's own rule does. -/
theorem waitSuccessEdge : Obligations.WaitSuccessEdge := by
  intro s w hl hw hr hlt hthree hmatch
  obtain ⟨e, ho⟩ : ∃ e, s.waitOutcome w = .success e := ⟨_, twOutcome_success_iff.mpr ⟨hlt, hthree, hmatch, rfl⟩⟩
  obtain ⟨hcount, -, -⟩ := waitOutcome_success_count ho
  refine ⟨latch (edgeCore s), step_of_legal hl hr, inputsAdvance_edge s, ?_⟩
  rw [edgeCore_of_success hw ho]
  obtain ⟨hp, hstep⟩ | ⟨hp, -, hnext, hstep⟩ | ⟨hp, hstep⟩ | ⟨hp, hmore, hstep⟩ | ⟨hp, hlast, hstep⟩ :=
    successStep_cases (e := e) (isWait_of_wait hw) rfl
  all_goals rw [hstep]
  · simp [hp, hcount, State.successPhase]
  · simp [hp, hnext, hcount]
  · simp [hp, hcount, State.successPhase]
  · simp [hp, hcount, hmore, State.successPhase]
  · simp [hp, hcount, hlast, State.successPhase]

/-! ### The samples of a wait -/

/-- The window after the wait has taken the next `n` samples (40_transition_waiter.md R69). -/
def State.windowAfter (s : State) : Nat → BitVec 3
  | 0 => s.win
  | n + 1 => shiftWindow (s.windowAfter n) (s.sampleAt n)

/-- From the third sample on, the window matches exactly if the last three samples do, whatever it held before the
wait (40_transition_waiter.md R69). -/
theorem matchAt_succ_iff {s : State} {l : Level} {n : Nat} :
    s.MatchAt l (n + 1) ↔ 3 ≤ n + 1 ∧ shiftWindow (s.windowAfter n) (s.sampleAt n) = fullWindow l := by
  match n with
  | 0 | 1 => simp [State.MatchAt]
  | m + 2 =>
    simp only [State.windowAfter, shiftWindow_three]
    rfl

/-- `t` is still in the wait that `s` is in, after the next `j` samples: TWStep's counters have moved, and nothing that
decides how the wait ends has changed. -/
structure State.StillWaits (s : State) (j : Nat) (t : State) : Prop where
  legal : t.Legal
  wait : t.wait = s.wait
  rate : t.cyclesPerUsPred = s.cyclesPerUsPred
  k : t.k.toNat = j
  win : t.win = s.windowAfter j
  phase : t.phase = s.phase
  bare : t.bare = s.bare
  bitidx : t.bitidx = s.bitidx
  elapsed : t.elapsed = s.elapsed

theorem stillWaits_zero {s : State} (hl : s.Legal) (hk : s.k = 0) : s.StillWaits 0 s :=
  ⟨hl, rfl, rfl, by simp [hk], rfl, rfl, rfl, rfl, rfl⟩

theorem successPhase_of_stillWaits {s t : State} {j : Nat} (h : s.StillWaits j t) : t.successPhase = s.successPhase := by
  simp only [State.successPhase, h.phase, h.bare, h.bitidx]

section

variable {s t : State} {w : Wait} {j : Nat}

/-- The sample of the edge after a run of `j` edges. -/
theorem sample_of_run (hrun : runSteps j s = .next t) (hr : s.NoReset j) : t.sample = s.sampleAt j :=
  sampleAt_run hrun hr 0

/-- The window the coming edge of a run looks at matches exactly if the samples do. -/
theorem window_matches_iff (hrun : runSteps j s = .next t) (hr : s.NoReset j) (ht : s.StillWaits j t) (l : Level) :
    3 ≤ t.k.toNat + 1 ∧ shiftWindow t.win t.sample = fullWindow l ↔ s.MatchAt l (j + 1) := by
  rw [matchAt_succ_iff, ht.k, ht.win, sample_of_run hrun hr]

theorem cycles_of_stillWaits (ht : s.StillWaits j t) (us : BitVec 16) :
    usToCycles t.cyclesPerUs us = usToCycles s.cyclesPerUs us := by
  simp only [State.cyclesPerUs, ht.rate]

/-- One more sample below the timeout without a match leaves the wait running. -/
theorem stillWaits_step (hw : s.wait = some w) (hrun : runSteps j s = .next t) (hr : s.NoReset (j + 1))
    (ht : s.StillWaits j t) (hlt : j + 1 < usToCycles s.cyclesPerUs w.timeoutUs)
    (hno : ¬ s.MatchAt w.level (j + 1)) : ∃ u, step t = .next u ∧ s.StillWaits (j + 1) u := by
  have hrt : t.NoReset 1 := noReset_run hrun hr
  rw [← window_matches_iff hrun (noReset_mono (by omega) hr) ht] at hno
  rw [← ht.k, ← cycles_of_stillWaits ht] at hlt
  have hwt : t.wait = some w := ht.wait.trans hw
  have ho : t.waitOutcome w = .running _ _ := twOutcome_running_iff.mpr ⟨hlt, hno, rfl, rfl⟩
  have hstep := step_of_legal ht.legal (rst_of_noReset hrt)
  rw [edgeCore_of_running hwt ho] at hstep
  refine ⟨_, hstep, ⟨legal_step ht.legal hstep, ht.wait, ht.rate, ?_, ?_, ht.phase, ht.bare, ht.bitidx, ht.elapsed⟩⟩
  · exact (toNat_count (cyclesPerUs_bounds t).2 hlt).trans (by rw [ht.k])
  · rw [State.windowAfter, ← ht.win, ← sample_of_run hrun (noReset_mono (by omega) hr)]
    rfl

end

/-- Until its first match or its last sample a wait runs on, whatever its window held at its start
(40_transition_waiter.md R72). -/
theorem wait_runs {s : State} {w : Wait} (hl : s.Legal) (hw : s.wait = some w) (hk : s.k = 0) (j : Nat)
    (hj : j < max (usToCycles s.cyclesPerUs w.timeoutUs) 1)
    (hno : ∀ m, m ≤ j → m < usToCycles s.cyclesPerUs w.timeoutUs → ¬ s.MatchAt w.level m) (hr : s.NoReset j) :
    ∃ t, runSteps j s = .next t ∧ s.StillWaits j t := by
  induction j with
  | zero => exact ⟨s, rfl, stillWaits_zero hl hk⟩
  | succ j ih =>
    obtain ⟨t, hrun, ht⟩ := ih (by omega) (fun m hm => hno m (by omega)) (noReset_mono (by omega) hr)
    have hlt : j + 1 < usToCycles s.cyclesPerUs w.timeoutUs := by omega
    obtain ⟨u, hu, hwait⟩ := stillWaits_step hw hrun hr ht hlt (hno (j + 1) le_rfl hlt)
    exact ⟨u, (runSteps_snoc hrun).trans hu, hwait⟩

/-- A first match below the timeout ends the wait with success at that sample (40_transition_waiter.md R72). -/
theorem wait_succeeds {s : State} {w : Wait} {n : Nat} (hl : s.Legal) (hw : s.wait = some w) (hk : s.k = 0)
    (hn : n < usToCycles s.cyclesPerUs w.timeoutUs) (hmatch : s.MatchAt w.level n)
    (hfirst : ∀ m, m < n → ¬ s.MatchAt w.level m) (hr : s.NoReset n) :
    ∃ t, runSteps n s = .next t ∧ t.elapsed.toNat = n ∧ t.phase = s.successPhase ∧
      (s.phase = .waitCmd → t.done = true ∧ t.result = .ok) := by
  obtain ⟨j, rfl⟩ : ∃ j, n = j + 1 := Nat.exists_eq_add_one.mpr (by have := hmatch.1; omega)
  have hrj : s.NoReset j := noReset_mono (by omega) hr
  obtain ⟨t, hrun, ht⟩ := wait_runs hl hw hk j (by omega) (fun m hm _ => hfirst m (by omega)) hrj
  obtain ⟨hthree, hwin⟩ := (window_matches_iff hrun hrj ht w.level).mpr hmatch
  rw [← ht.k, ← cycles_of_stillWaits ht] at hn
  obtain ⟨u, hu, -, helapsed, hphase, -, hend, -⟩ :=
    waitSuccessEdge t w ht.legal (ht.wait.trans hw) (rst_of_noReset (noReset_run hrun hr)) hn hthree hwin
  refine ⟨u, (runSteps_snoc hrun).trans hu, ht.k ▸ helapsed, hphase.trans (successPhase_of_stillWaits ht), fun hp => ?_⟩
  rwa [if_pos (ht.phase.trans hp)] at hend

/-- Without a match below the timeout the wait times out at its last sample, or at its first where the timeout is 0
(40_transition_waiter.md R72). -/
theorem wait_timesOut {s : State} {w : Wait} (hl : s.Legal) (hw : s.wait = some w) (hk : s.k = 0)
    (hno : ∀ m, m < usToCycles s.cyclesPerUs w.timeoutUs → ¬ s.MatchAt w.level m)
    (hr : s.NoReset (max (usToCycles s.cyclesPerUs w.timeoutUs) 1)) :
    ∃ t, runSteps (max (usToCycles s.cyclesPerUs w.timeoutUs) 1) s = .next t ∧ t.phase = .idle ∧ t.done = true ∧
      t.result = .timeout ∧ t.errInfo = timeoutInfo w.level s.phase s.bitidx w.timeoutUs ∧ t.elapsed = s.elapsed := by
  obtain ⟨j, hj⟩ : ∃ j, max (usToCycles s.cyclesPerUs w.timeoutUs) 1 = j + 1 := Nat.exists_eq_add_one.mpr (by omega)
  rw [hj] at hr ⊢
  obtain ⟨t, hrun, ht⟩ := wait_runs hl hw hk j (by omega) (fun m _ => hno m) (noReset_mono (by omega) hr)
  have ho : t.waitOutcome w = .timeout := twOutcome_timeout_iff.mpr (by rw [cycles_of_stillWaits ht, ht.k]; omega)
  have hrt : t.NoReset 1 := noReset_run hrun hr
  refine ⟨_, (runSteps_snoc hrun).trans (step_of_legal ht.legal (rst_of_noReset hrt)), ?_⟩
  rw [edgeCore_of_timeout (ht.wait.trans hw) ho, ← ht.phase, ← ht.bitidx]
  exact ⟨rfl, rfl, rfl, rfl, ht.elapsed⟩

/-- Every wait but WAIT_CMD's has a timeout of 100 µs or more, and a µs is at least one cycle (00_scope.md R6). -/
theorem fixed_timeout_ge {s : State} {w : Wait} (hw : s.wait = some w) (hp : s.phase ≠ .waitCmd) :
    100 ≤ usToCycles s.cyclesPerUs w.timeoutUs := by
  have hus : 100 ≤ w.timeoutUs.toNat := by
    cases hq : s.phase with
    | waitCmd => exact absurd hq hp
    | hsAwaitSensorHigh | hsAwaitAckLow | hsAwaitAckHigh | hsAwaitStartLow | hsAwaitStartHigh | frWaitLow
    | frWaitHigh =>
      simp only [State.wait, hq, Option.some.injEq] at hw
      subst hw
      decide
    | idle | hsIdleHigh | hsStartLow | hsRelease | validate | unused13 | unused14 | unused15 =>
      simp [State.wait, hq] at hw
  exact Nat.mul_le_mul hus (cyclesPerUs_bounds s).1

/-- Settles O31: the run up to the last edge of the wait by induction on the samples, then the edge that ends it. -/
theorem waitEndsAtFirstMatchOrAtItsTimeout : Obligations.WaitEndsAtFirstMatchOrAtItsTimeout := by
  intro s w hl hw hk _ T
  refine ⟨fixed_timeout_ge hw, fun n => wait_succeeds hl hw hk, wait_timesOut hl hw hk, fun j hj hno hr => ?_⟩
  obtain ⟨t, hrun, ht⟩ := wait_runs hl hw hk j hj hno hr
  exact ⟨t, hrun, ht.phase, ht.k⟩

/-! ### The sample outside the waits -/

/-- The verdict and its record do not look at the synchronizer. -/
theorem recordVerdict_setSample (v : Verdict) (s : State) (l : Level) :
    recordVerdict v { s with sync2 := l } = { recordVerdict v s with sync2 := l } := by
  cases v <;> rfl

/-- Outside the waits the control part does not look at the sample (40_transition_waiter.md R75). -/
theorem control_setSample {s : State} (h : s.phase.isWait = false) (l : Level) :
    controlStep { s with sync2 := l } = ({ (controlStep s).1 with sync2 := l }, (controlStep s).2) := by
  by_cases ht : s.phase.taken = true
  · obtain hp | hp | ⟨w, hw⟩ | hp := phase_kinds ht
    · rw [control_of_idle hp, control_of_idle (s := { s with sync2 := l }) hp]
    · rw [control_of_drive hp, control_of_drive (s := { s with sync2 := l }) hp]
      show ((if s.hc.toNat + 1 = s.holdCycles then _ else _), _) = _
      cases s.phase <;> simp only <;> split_ifs <;> rfl
    · simp [isWait_of_wait hw] at h
    · rw [control_of_validate hp, control_of_validate (s := { s with sync2 := l }) hp]
      exact congrArg (·, true) (recordVerdict_setSample s.verdict s l)
  · cases hp : s.phase <;> simp_all [controlStep]

theorem acceptOf_setSample (i : Instr) (s : State) (l : Level) :
    acceptOf i { s with sync2 := l } = { acceptOf i s with sync2 := l } := by
  cases i <;> rfl

theorem hostWrite_setSample (s c : State) (b : Bool) (l : Level) :
    hostWrite { s with sync2 := l } b { c with sync2 := l } = { hostWrite s b c with sync2 := l } := by
  simp only [hostWrite]
  repeat' split
  all_goals rfl

theorem edgeCore_setSample {s : State} (h : s.phase.isWait = false) (l : Level) :
    edgeCore { s with sync2 := l } = { edgeCore s with sync2 := l } := by
  have hcmd : State.commandWord { s with sync2 := l } = s.commandWord := rfl
  unfold edgeCore
  rw [hcmd, control_setSample h]
  cases s.commandWord with
  | none => exact hostWrite_setSample _ _ _ _
  | some v =>
    simp only
    split_ifs
    · exact acceptOf_setSample _ _ _
    · rfl

/-- Settles O32: a wait's pin by the pin table; outside the waits the sample reaches nothing but `sync2`, which the
edge overwrites. -/
theorem lineIsSampledOnlyInInputMode : Obligations.LineIsSampledOnlyInInputMode := by
  refine ⟨fun s h => (pins_of_wait h).1, fun s l h => ?_⟩
  cases hr : s.pins.rst with
  | true => rw [step_of_rst hr, step_of_rst (s := { s with sync2 := l }) hr]; rfl
  | false =>
    rw [step_of_noRst hr, step_of_noRst (s := { s with sync2 := l }) hr, edgeState_eq, edgeState_eq,
      edgeCore_setSample h]
    rfl

end Sys2Proof.Machine
end

section
/-! The Handshake Sequencer: the edge of a drive phase, a whole drive phase from its start to its end, and the handshake
of an attempt whose line stays Low (41_handshake.md). -/

namespace Sys2Proof.Machine

/-! ### One edge of a drive phase -/

theorem drive_cases {s : State} (h : s.phase.isDrive = true) :
    s.phase = .hsIdleHigh ∨ s.phase = .hsStartLow ∨ s.phase = .hsRelease := by
  cases hp : s.phase <;> simp [hp] at h ⊢

theorem busy_of_drive {s : State} (h : s.phase.isDrive = true) : s.phase ≠ .idle := by
  intro hp
  simp [hp] at h

/-- Before its last edge a drive phase counts and lets the host write CTRL and STATUS (41_handshake.md R81). -/
theorem edgeCore_of_hold {s : State} (h : s.phase.isDrive = true) (hne : s.hc.toNat + 1 ≠ s.holdCycles) :
    edgeCore s = { s with hc := s.hc + 1, ie := s.ieAfter, done := s.doneAfter } := by
  rw [edgeCore_busy (busy_of_drive h), control_of_drive h, if_neg hne]
  rfl

/-- The last edge of a drive phase enters the next phase, after HS_RELEASE as a wait's start (41_handshake.md R81,
R84). -/
theorem edgeCore_of_holdEnd {s : State} (h : s.phase.isDrive = true) (heq : s.hc.toNat + 1 = s.holdCycles) :
    edgeCore s =
      { s with
        hc := 0, phase := s.driveNext, ie := s.ieAfter, done := s.doneAfter
        k := if s.phase = .hsRelease then 0 else s.k
        win := if s.phase = .hsRelease then 0 else s.win } := by
  rw [edgeCore_busy (busy_of_drive h), control_of_drive h, if_pos heq]
  obtain hp | hp | hp := drive_cases h <;> simp [hp, State.driveNext, enterDrive, startWait]

/-- Settles O26: whether the count reaches the phase's length decides between `edgeCore_of_holdEnd` and
`edgeCore_of_hold`. -/
theorem drivePhaseCountsOrLeaves : Obligations.DrivePhaseCountsOrLeaves := by
  intro s hl hd hr
  refine ⟨latch (edgeCore s), step_of_legal hl hr, inputsAdvance_edge s, ?_⟩
  by_cases heq : s.hc.toNat + 1 = s.holdCycles
  · rw [edgeCore_of_holdEnd hd heq]
    by_cases hrel : s.phase = .hsRelease <;> simp [heq, hrel]
  · rw [edgeCore_of_hold hd heq]
    simp [heq]

/-! ### The edge of Await-Ack-High -/

theorem wait_of_ackHigh {s : State} (hp : s.phase = .hsAwaitAckHigh) : s.wait = some ⟨.high, 100⟩ := by
  simp only [State.wait, hp]
  rfl

/-- Settles O35: the phase's success leads to `successPhase`, which is a wait in both modes; the timeout's site is the
phase. -/
theorem ackHighSuccessBranchesOnBare : Obligations.AckHighSuccessBranchesOnBare := by
  intro s hp
  have hw := wait_of_ackHigh hp
  refine ⟨hw, fun hl hr hlt hthree hmatch => ?_, fun hl hr hle => ?_⟩
  · obtain ⟨t, hstep, -, -, hphase, hstart, -⟩ := waitSuccessEdge s _ hl hw hr hlt hthree hmatch
    have hnext : t.phase = if s.bare then .frWaitLow else .hsAwaitStartLow := by
      rw [hphase, State.successPhase, hp]
    have hwait : t.phase.isWait = true := by
      rw [hnext]
      split_ifs <;> rfl
    rw [if_pos hwait] at hstart
    exact ⟨t, hstep, hstart.1, hstart.2, fun hb => by simp [hnext, hb], fun hb => by simp [hnext, hb]⟩
  · have ho : s.waitOutcome ⟨.high, 100⟩ = .timeout := twOutcome_timeout_iff.mpr hle
    refine ⟨_, step_of_legal hl hr, ?_⟩
    rw [edgeCore_of_timeout hw ho, hp]
    exact ⟨rfl, rfl⟩

/-! ### Runs -/

theorem legal_run {s t : State} {n : Nat} (hl : s.Legal) (h : runSteps n s = .next t) : t.Legal := by
  induction n generalizing s with
  | zero =>
    obtain rfl : s = t := by simpa using h
    exact hl
  | succ n ih =>
    obtain ⟨u, hu, h⟩ := runSteps_succ_eq_next h
    exact ih (legal_step hl hu) h

/-- No run changes the clock rate (00_scope.md R5). -/
theorem cyclesPerUs_run {s t : State} {n : Nat} (h : runSteps n s = .next t) : t.cyclesPerUs = s.cyclesPerUs := by
  induction n generalizing s with
  | zero =>
    obtain rfl : s = t := by simpa using h
    rfl
  | succ n ih =>
    obtain ⟨u, hu, h⟩ := runSteps_succ_eq_next h
    obtain ⟨-, -, -, hrate⟩ := step_inputs hu
    rw [ih h, State.cyclesPerUs, State.cyclesPerUs, hrate]

/-! ### A whole drive phase -/

section

variable {s : State}

theorem holdCycles_of_idleHigh (hp : s.phase = .hsIdleHigh) : s.holdCycles = 100 * s.cyclesPerUs := by
  rw [State.holdCycles, hp]
  rfl

theorem holdCycles_of_startLow (hp : s.phase = .hsStartLow) : s.holdCycles = 1000 * s.cyclesPerUs := by
  rw [State.holdCycles, hp]
  rfl

theorem holdCycles_of_release (hp : s.phase = .hsRelease) : s.holdCycles = 1 := by
  rw [State.holdCycles, hp]
  rfl

/-- Every drive phase lasts a cycle, and its length fits the hold counter (00_scope.md R8). -/
theorem holdCycles_bounds (h : s.phase.isDrive = true) : 1 ≤ s.holdCycles ∧ s.holdCycles < 2 ^ 32 := by
  have hrate := cyclesPerUs_bounds s
  obtain hp | hp | hp := drive_cases h
  · rw [holdCycles_of_idleHigh hp]
    omega
  · rw [holdCycles_of_startLow hp]
    omega
  · rw [holdCycles_of_release hp]
    omega

/-- A drive phase drives the line, Low exactly in HS_START_LOW (10_state.md R20). -/
theorem pins_of_drive (h : s.phase.isDrive = true) : s.lineOe = true ∧ (s.lineOut = .low ↔ s.phase = .hsStartLow) := by
  obtain hp | hp | hp := drive_cases h <;> simp [State.lineOe, State.lineOut, hp]

end

/-- `t` is still in the drive phase that `s` has just entered, after `j` edges. -/
structure State.StillDrives (s : State) (j : Nat) (t : State) : Prop where
  phase : t.phase = s.phase
  hc : t.hc.toNat = j
  elapsed : t.elapsed = s.elapsed

theorem holdCycles_of_stillDrives {s t : State} {j : Nat} (hrun : runSteps j s = .next t) (ht : s.StillDrives j t) :
    t.holdCycles = s.holdCycles := by
  rw [State.holdCycles, State.holdCycles, ht.phase, cyclesPerUs_run hrun]

/-- Below its length a drive phase stays and counts (41_handshake.md R81). -/
theorem drive_runs {s : State} (hl : s.Legal) (hd : s.phase.isDrive = true) (hc : s.hc = 0) (j : Nat)
    (hj : j < s.holdCycles) (hr : s.NoReset j) : ∃ t, runSteps j s = .next t ∧ s.StillDrives j t := by
  induction j with
  | zero => exact ⟨s, rfl, rfl, by simp [hc], rfl⟩
  | succ j ih =>
    obtain ⟨t, hrun, ht⟩ := ih (by omega) (noReset_mono (by omega) hr)
    have hdt : t.phase.isDrive = true := by rw [ht.phase, hd]
    have hne : t.hc.toNat + 1 ≠ t.holdCycles := by
      rw [ht.hc, holdCycles_of_stillDrives hrun ht]
      omega
    have hstep := step_of_legal (legal_run hl hrun) (rst_of_noReset (noReset_run hrun hr))
    rw [edgeCore_of_hold hdt hne] at hstep
    refine ⟨_, (runSteps_snoc hrun).trans hstep, ht.phase, ?_, ht.elapsed⟩
    have hlt := (holdCycles_bounds hd).2
    have hcount := ht.hc
    show (t.hc + 1).toNat = j + 1
    bv_omega

/-- A drive phase ends at the edge of its length, and after HS_RELEASE the wait starts afresh (41_handshake.md R81,
40_transition_waiter.md R67). -/
theorem drive_ends {s : State} (hl : s.Legal) (hd : s.phase.isDrive = true) (hc : s.hc = 0)
    (hr : s.NoReset s.holdCycles) :
    ∃ t, runSteps s.holdCycles s = .next t ∧ t.phase = s.driveNext ∧ t.hc = 0 ∧ t.elapsed = s.elapsed ∧
      (s.phase = .hsRelease → t.k = 0) := by
  obtain ⟨j, hj⟩ : ∃ j, s.holdCycles = j + 1 := Nat.exists_eq_add_one.mpr (holdCycles_bounds hd).1
  rw [hj] at hr ⊢
  obtain ⟨t, hrun, ht⟩ := drive_runs hl hd hc j (by omega) (noReset_mono (by omega) hr)
  have hdt : t.phase.isDrive = true := by rw [ht.phase, hd]
  have heq : t.hc.toNat + 1 = t.holdCycles := by rw [ht.hc, holdCycles_of_stillDrives hrun ht, hj]
  have hstep := step_of_legal (legal_run hl hrun) (rst_of_noReset (noReset_run hrun hr))
  rw [edgeCore_of_holdEnd hdt heq] at hstep
  refine ⟨_, (runSteps_snoc hrun).trans hstep, ?_, rfl, ht.elapsed, fun hp => if_pos (ht.phase.trans hp)⟩
  show t.driveNext = s.driveNext
  rw [State.driveNext, State.driveNext, ht.phase]

/-- Settles O27: below the length by induction on the edges, then the edge that leaves the phase. -/
theorem drivePhaseLastsExactlyItsLength : Obligations.DrivePhaseLastsExactlyItsLength := by
  intro s hl hd hc hr
  refine ⟨(holdCycles_bounds hd).1, holdCycles_of_idleHigh, holdCycles_of_startLow, holdCycles_of_release,
    fun j hj => ?_, ?_⟩
  · obtain ⟨t, hrun, ht⟩ := drive_runs hl hd hc j hj (noReset_mono (by omega) hr)
    obtain ⟨hoe, hout⟩ := pins_of_drive (s := t) (by rw [ht.phase, hd])
    exact ⟨t, hrun, ht.phase, ht.hc, hoe, by rw [hout, ht.phase]⟩
  · obtain ⟨t, hrun, hphase, hhc, -⟩ := drive_ends hl hd hc hr
    exact ⟨t, hrun, hphase, hhc⟩

/-! ### FRAME and DATA in the handshake -/

/-- The control part writes FRAME nowhere but at the end of FR_WAIT_HIGH (42_frame_reader.md R101). -/
theorem control_frameRegs_of_ne_frWaitHigh {s : State} (hl : s.Legal) (h : s.phase ≠ .frWaitHigh) :
    (controlStep s).1.frameHi = s.frameHi ∧ (controlStep s).1.frameLo = s.frameLo := by
  obtain hi | hd | ⟨w, hw⟩ | hv := phase_kinds hl.1
  · rw [control_of_idle hi]; exact ⟨rfl, rfl⟩
  · rw [control_of_drive hd]
    obtain hp | hp | hp := drive_cases hd
    all_goals rw [hp]; simp only; split_ifs <;> exact ⟨rfl, rfl⟩
  · cases ho : s.waitOutcome w with
    | running k win => rw [control_of_running hw ho]; exact ⟨rfl, rfl⟩
    | timeout => rw [control_of_timeout hw ho]; exact ⟨rfl, rfl⟩
    | success e =>
      rw [control_of_success hw ho]
      obtain ⟨-, hs⟩ | ⟨-, -, -, hs⟩ | ⟨-, hs⟩ | ⟨hp, -⟩ | ⟨hp, -⟩ := successStep_cases (e := e) (isWait_of_wait hw) rfl
      iterate 3 · rw [hs]; exact ⟨rfl, rfl⟩
      · exact absurd hp h
      · exact absurd hp h
  · rw [control_of_validate hv]
    cases s.verdict <;> exact ⟨rfl, rfl⟩

/-- The phases of an attempt before its first bit (41_handshake.md R80). -/
def State.InHandshake (s : State) : Prop :=
  s.phase.isReading = true ∧ s.phase.isFrame = false

theorem busy_of_inHandshake {s : State} (h : s.InHandshake) : s.phase ≠ .idle := by
  intro hp
  simp [State.InHandshake, hp] at h

/-- An edge in the handshake leaves FRAME and DATA as they are (70_reset_and_hazards.md R155). -/
theorem frame_data_step {s t : State} (hp : s.InHandshake) (hr : s.pins.rst = false) (h : step s = .next t) :
    t.frameHi = s.frameHi ∧ t.frameLo = s.frameLo ∧ t.data = s.data := by
  obtain ⟨hr', -⟩ | ⟨-, hl, rfl⟩ := step_eq_next_iff.mp h
  · simp [hr] at hr'
  have hbit : s.phase ≠ .frWaitHigh := by
    intro hq
    simp [State.InHandshake, hq] at hp
  have hval : s.phase ≠ .validate := by
    intro hq
    simp [State.InHandshake, hq] at hp
  obtain ⟨hhi, hlo⟩ := control_frameRegs_of_ne_frWaitHigh hl hbit
  rw [edgeState_eq, edgeCore_busy (busy_of_inHandshake hp)]
  exact ⟨hhi, hlo, control_data_of_ne_validate hl hval⟩

/-- `n` edges in the handshake lead from `s` to `t`, and ELAPSED is at the end what it was. -/
structure State.HandshakeRun (s : State) (n : Nat) (t : State) : Prop where
  run : runSteps n s = .next t
  within : ∀ j, j < n → ∃ v, runSteps j s = .next v ∧ v.InHandshake
  elapsed : t.elapsed = s.elapsed

theorem handshakeRun_trans {s t u : State} {m n : Nat} (h : s.HandshakeRun m t) (h' : t.HandshakeRun n u) :
    s.HandshakeRun (m + n) u := by
  refine ⟨(runSteps_add h.run).trans h'.run, fun j hj => ?_, h'.elapsed.trans h.elapsed⟩
  obtain hlt | ⟨i, rfl⟩ := (Nat.lt_or_ge j m).imp_right Nat.exists_eq_add_of_le
  · exact h.within j hlt
  · rw [runSteps_add h.run]
    exact h'.within i (by omega)

theorem frame_data_of_handshakeRun {s t : State} {n : Nat} (h : s.HandshakeRun n t) (hr : s.NoReset n) :
    t.frameHi = s.frameHi ∧ t.frameLo = s.frameLo ∧ t.data = s.data := by
  obtain ⟨hrun, hwithin, -⟩ := h
  induction n generalizing t with
  | zero =>
    obtain rfl : s = t := by simpa using hrun
    exact ⟨rfl, rfl, rfl⟩
  | succ n ih =>
    obtain ⟨v, hv, hp⟩ := hwithin n (by omega)
    obtain ⟨hhi, hlo, hdata⟩ := ih (noReset_mono (by omega) hr) hv (fun j hj => hwithin j (by omega))
    obtain ⟨hhi', hlo', hdata'⟩ :=
      frame_data_step hp (rst_of_noReset (noReset_run hv hr)) ((runSteps_snoc hv).symm.trans hrun)
    exact ⟨hhi'.trans hhi, hlo'.trans hlo, hdata'.trans hdata⟩

/-! ### An attempt on a line that stays Low -/

/-- A drive phase is a run in the handshake. -/
theorem drive_handshakeRun {s : State} {n : Nat} (hl : s.Legal) (hd : s.phase.isDrive = true) (hc : s.hc = 0)
    (hn : s.holdCycles = n) (hr : s.NoReset n) :
    ∃ t, s.HandshakeRun n t ∧ t.phase = s.driveNext ∧ t.hc = 0 ∧ (s.phase = .hsRelease → t.k = 0) := by
  subst hn
  obtain ⟨t, hrun, hphase, hhc, helapsed, hk⟩ := drive_ends hl hd hc hr
  refine ⟨t, ⟨hrun, fun j hj => ?_, helapsed⟩, hphase, hhc, hk⟩
  obtain ⟨v, hv, hdrives⟩ := drive_runs hl hd hc j hj (noReset_mono (by omega) hr)
  refine ⟨v, hv, ?_⟩
  rw [State.InHandshake, hdrives.phase]
  obtain hp | hp | hp := drive_cases hd <;> simp [hp]

/-- The three drive phases lead from the start of an attempt to the start of the High-wait (41_handshake.md
R82–R84). -/
theorem drivePhases_handshakeRun {s : State} (hl : s.Legal) (hp : s.phase = .hsIdleHigh) (hc : s.hc = 0)
    (hr : s.NoReset (1100 * s.cyclesPerUs + 1)) :
    ∃ t, s.HandshakeRun (1100 * s.cyclesPerUs + 1) t ∧ t.phase = .hsAwaitSensorHigh ∧ t.k = 0 := by
  have hsum : 1100 * s.cyclesPerUs + 1 = 100 * s.cyclesPerUs + 1000 * s.cyclesPerUs + 1 := by omega
  rw [hsum] at hr ⊢
  obtain ⟨t, hst, hpt, hct, -⟩ :=
    drive_handshakeRun hl (by simp [hp]) hc (holdCycles_of_idleHigh hp) (noReset_mono (by omega) hr)
  replace hpt : t.phase = .hsStartLow := by rw [hpt, State.driveNext, hp]
  have hlt := legal_run hl hst.run
  have hnt : t.holdCycles = 1000 * s.cyclesPerUs := by rw [holdCycles_of_startLow hpt, cyclesPerUs_run hst.run]
  obtain ⟨u, htu, hpu, hcu, -⟩ := drive_handshakeRun hlt (by simp [hpt]) hct hnt
    (noReset_run hst.run (noReset_mono (by omega) hr))
  replace hpu : u.phase = .hsRelease := by rw [hpu, State.driveNext, hpt]
  have hsu := handshakeRun_trans hst htu
  obtain ⟨v, huv, hpv, -, hkv⟩ := drive_handshakeRun (legal_run hlt htu.run) (by simp [hpu]) hcu
    (holdCycles_of_release hpu) (noReset_run hsu.run hr)
  exact ⟨v, handshakeRun_trans hsu huv, by rw [hpv, State.driveNext, hpu], hkv hpu⟩

/-- A line that is not at `l` from now on brings no match for `l`: of the samples the synchronizer already holds there
are but two (10_state.md R19). -/
theorem not_matchAt_of_line {s : State} {l : Level} {n m : Nat} (h : ∀ j, j < n → (s.portsAt j).lineIn ≠ l)
    (hm : m ≤ n) : ¬ s.MatchAt l m := by
  rintro ⟨hthree, -, -, hlast⟩
  obtain ⟨j, rfl⟩ := Nat.exists_eq_add_of_le' hthree
  exact h j (by omega) hlast

theorem wait_of_sensorHigh {s : State} (hp : s.phase = .hsAwaitSensorHigh) : s.wait = some ⟨.high, 100⟩ := by
  simp only [State.wait, hp]
  rfl

/-- The High-wait on a line that stays Low is a run in the handshake and ends in its timeout at site 4
(41_handshake.md R93). -/
theorem sensorHigh_timesOut_on_low {s : State} (hl : s.Legal) (hp : s.phase = .hsAwaitSensorHigh) (hk : s.k = 0)
    (hr : s.NoReset (100 * s.cyclesPerUs)) (hlow : ∀ j, j < 100 * s.cyclesPerUs → (s.portsAt j).lineIn = .low) :
    ∃ t, s.HandshakeRun (100 * s.cyclesPerUs) t ∧ t.phase = .idle ∧ t.done = true ∧ t.result = .timeout ∧
      t.errInfo = timeoutInfo .high .hsAwaitSensorHigh s.bitidx 100 := by
  have hw := wait_of_sensorHigh hp
  have hcycles : usToCycles s.cyclesPerUs 100 = 100 * s.cyclesPerUs := rfl
  have hmax : max (100 * s.cyclesPerUs) 1 = 100 * s.cyclesPerUs := by
    have := (cyclesPerUs_bounds s).1
    omega
  have hno : ∀ m, m < 100 * s.cyclesPerUs → ¬ s.MatchAt .high m := fun m hm =>
    not_matchAt_of_line (n := 100 * s.cyclesPerUs) (fun j hj => by simp [hlow j hj]) (by omega)
  obtain ⟨t, hrun, hphase, hdone, hresult, herr, helapsed⟩ :=
    wait_timesOut hl hw hk (by rwa [hcycles]) (by rwa [hcycles, hmax])
  rw [hcycles, hmax] at hrun
  refine ⟨t, ⟨hrun, fun j hj => ?_, helapsed⟩, hphase, hdone, hresult, by rw [herr, hp]⟩
  obtain ⟨v, hv, hwaits⟩ := wait_runs hl hw hk j (by rwa [hcycles, hmax]) (fun m _ hm => hno m hm)
    (noReset_mono (by omega) hr)
  exact ⟨v, hv, by rw [State.InHandshake, hwaits.phase, hp]; exact ⟨rfl, rfl⟩⟩

/-- From the start of an attempt on a line that is Low in the High-wait, the handshake runs 1200·C + 1 edges and ends in
the High-wait's timeout (41_handshake.md R93). -/
theorem stuckLow_handshakeRun {s : State} (hl : s.Legal) (hp : s.phase = .hsIdleHigh) (hc : s.hc = 0)
    (hr : s.NoReset (1100 * s.cyclesPerUs + 1 + 100 * s.cyclesPerUs))
    (hlow : ∀ j, j < 100 * s.cyclesPerUs → (s.portsAt (1100 * s.cyclesPerUs + 1 + j)).lineIn = .low) :
    ∃ t, s.HandshakeRun (1100 * s.cyclesPerUs + 1 + 100 * s.cyclesPerUs) t ∧ t.phase = .idle ∧ t.done = true ∧
      t.result = .timeout ∧ t.errInfo.word = 0x00640041 := by
  obtain ⟨v, hsv, hpv, hkv⟩ := drivePhases_handshakeRun hl hp hc (noReset_mono (by omega) hr)
  have hrv := noReset_run hsv.run hr
  simp only [← portsAt_run hsv.run] at hlow
  rw [← cyclesPerUs_run hsv.run] at hrv hlow
  obtain ⟨t, hvt, hphase, hdone, hresult, herr⟩ :=
    sensorHigh_timesOut_on_low (legal_run hl hsv.run) hpv hkv hrv hlow
  rw [cyclesPerUs_run hsv.run] at hvt
  obtain ⟨-, hword, -⟩ := errInfoWordsOfTheTable
  exact ⟨t, handshakeRun_trans hsv hvt, hphase, hdone, hresult, (congrArg ErrInfo.word herr).trans hword⟩

/-- READ and READ_BARE differ in the mode they record alone (44_control.md R118). -/
theorem acceptOf_attempt {i : Instr} (hi : i = .read ∨ i = .readBare) : ∃ bare, acceptOf i = acceptAttempt bare := by
  obtain rfl | rfl := hi
  · exact ⟨false, rfl⟩
  · exact ⟨true, rfl⟩

/-- Settles O48: the handshake runs to the timeout of the High-wait and keeps ELAPSED and the zeros that the accept left
in FRAME and DATA. -/
theorem stuckLowReadTimesOutExactly : Obligations.StuckLowReadTimesOutExactly := by
  intro s u i hl hp hi hexec hr hlow
  obtain ⟨bare, hacc⟩ := acceptOf_attempt hi
  rw [exec_of_idle i hl hp, hacc] at hexec
  obtain rfl := Host.Outcome.next.inj hexec
  have hsum : 1200 * s.cyclesPerUs + 1 = 1100 * s.cyclesPerUs + 1 + 100 * s.cyclesPerUs := by omega
  rw [hsum] at hr hlow ⊢
  obtain ⟨t, hrun, hphase, hdone, hresult, hword⟩ :=
    stuckLow_handshakeRun (s := latch (acceptAttempt bare s)) ⟨rfl, rfl⟩ rfl rfl hr
      (fun j hj => hlow _ (Nat.le_add_right _ _) (Nat.add_lt_add_left hj _))
  obtain ⟨hhi, hlo, hdata⟩ := frame_data_of_handshakeRun hrun hr
  refine ⟨fun j hj => ?_, t, hrun.run, hphase, hdone, hresult, hword, hhi, hlo, hdata, hrun.elapsed⟩
  obtain ⟨v, hv, hhandshake⟩ := hrun.within j hj
  exact ⟨v, hv, bne_iff_ne.mpr (busy_of_inHandshake hhandshake)⟩

end Sys2Proof.Machine
end

section
/-! The Bit Frame Reader: the two waits of a bit, its class by the length of its High run, the frame of 40 bits, and
what an attempt that fails leaves behind (42_frame_reader.md). -/

namespace Sys2Proof.Machine

/-! ### FR_WAIT_LOW: the class of a bit -/

/-- A bit is a 1 exactly if its duration reaches 50 µs (42_frame_reader.md R97). -/
theorem classify_iff (c : Nat) (e : Word) : classify c e = true ↔ 50 * c ≤ e.toNat := by
  rw [classify, decide_eq_true_iff]
  rfl

theorem wait_of_frWaitLow {s : State} (hp : s.phase = .frWaitLow) : s.wait = some ⟨.low, 500⟩ := by
  simp only [State.wait, hp]
  rfl

/-- The success of FR_WAIT_LOW classifies the bit and starts FR_WAIT_HIGH (42_frame_reader.md R98). -/
theorem edgeCore_of_bitLow {s : State} {e : Word} (hp : s.phase = .frWaitLow)
    (ho : s.waitOutcome ⟨.low, 500⟩ = .success e) :
    edgeCore s =
      { s with
        elapsed := e, bitval := classify s.cyclesPerUs e, k := 0, win := 0, phase := .frWaitHigh
        ie := s.ieAfter, done := s.doneAfter } := by
  rw [edgeCore_of_success (wait_of_frWaitLow hp) ho, successStep, hp]
  rfl

/-- Settles O36: the outcome of the wait decides between the edges of `edgeCore_of_bitLow`, `edgeCore_of_timeout` and
`edgeCore_of_running`. -/
theorem frWaitLowClassifiesTheBit : Obligations.FrWaitLowClassifiesTheBit := by
  intro s hl hp hr
  have hw := wait_of_frWaitLow hp
  refine ⟨hw, latch (edgeCore s), step_of_legal hl hr, ?_⟩
  cases ho : s.waitOutcome ⟨.low, 500⟩ with
  | running k win =>
    obtain ⟨hlt, hno, -⟩ := twOutcome_running_iff.mp ho
    rw [edgeCore_of_running hw ho]
    exact ⟨rfl, rfl, fun _ hthree hmatch => absurd ⟨hthree, hmatch⟩ hno, fun hle => absurd hlt hle.not_gt⟩
  | success e =>
    obtain ⟨hcount, -, hlt⟩ := waitOutcome_success_count ho
    rw [edgeCore_of_bitLow hp ho]
    refine ⟨rfl, rfl, fun _ _ _ => ⟨hcount, ?_, rfl, rfl, rfl⟩, fun hle => absurd (hcount ▸ hlt) hle.not_gt⟩
    rw [← hcount]
    exact classify_iff s.cyclesPerUs e
  | timeout =>
    have hle := twOutcome_timeout_iff.mp ho
    rw [edgeCore_of_timeout hw ho, hp]
    exact ⟨rfl, rfl, fun hlt => absurd hlt hle.not_gt, fun _ => ⟨rfl, rfl, rfl, rfl, rfl, rfl⟩⟩

/-- A run of High samples before three Low ones brings the first match of a wait for Low at its end
(42_frame_reader.md R96). -/
theorem first_matchAt_of_highRun {s : State} {d : Nat} (hd : 3 ≤ d)
    (hhigh : ∀ j, j < d - 3 → s.sampleAt j = .high) (hlow : ∀ j, d - 3 ≤ j → j < d → s.sampleAt j = .low) :
    s.MatchAt .low d ∧ ∀ m, m < d → ¬ s.MatchAt .low m := by
  constructor
  · exact ⟨hd, hlow _ (by omega) (by omega), hlow _ (by omega) (by omega), hlow _ (by omega) (by omega)⟩
  · rintro m hm ⟨hthree, hold, -⟩
    rw [hhigh (m - 3) (by omega)] at hold
    exact nomatch hold

/-- Settles O39: the wait runs without a match up to its last edge (`wait_runs`), which classifies the bit by the d
samples taken. -/
theorem bitIsClassifiedByItsHighRun : Obligations.BitIsClassifiedByItsHighRun := by
  intro s d hl hp hk _ hd hlt hhigh hlow hr
  obtain ⟨hmatch, hfirst⟩ := first_matchAt_of_highRun hd hhigh hlow
  obtain ⟨j, rfl⟩ : ∃ j, d = j + 1 := Nat.exists_eq_add_one.mpr (by omega)
  have hrj : s.NoReset j := noReset_mono (by omega) hr
  obtain ⟨t, hrun, ht⟩ := wait_runs hl (wait_of_frWaitLow hp) hk j (lt_max_of_lt_left (Nat.lt_of_succ_lt hlt))
    (fun m hm _ => hfirst m (by omega)) hrj
  obtain ⟨hthree, hwin⟩ := (window_matches_iff hrun hrj ht .low).mpr hmatch
  obtain ⟨-, u, hu, -, -, hsuccess, -⟩ :=
    frWaitLowClassifiesTheBit t ht.legal (ht.phase.trans hp) (rst_of_noReset (noReset_run hrun hr))
  rw [ht.k, cyclesPerUs_run hrun] at hsuccess
  obtain ⟨helapsed, hbit, hphase, -⟩ := hsuccess hlt hd hwin
  exact ⟨u, (runSteps_snoc hrun).trans hu, hphase, helapsed, hbit⟩

/-! ### FR_WAIT_HIGH: the bits of a frame -/

theorem wait_of_frWaitHigh {s : State} (hp : s.phase = .frWaitHigh) : s.wait = some ⟨.high, 500⟩ := by
  simp only [State.wait, hp]
  rfl

/-- FRAME at frame completion is the shift register, FRAME_HI above FRAME_LO (42_frame_reader.md R101). -/
theorem frame_toNat_of_frameComplete (sr : BitVec 40) (s : State) :
    (frameComplete sr s).frameHi.toNat * 256 + (frameComplete sr s).frameLo.toNat = sr.toNat := by
  have := sr.isLt
  simp only [frameComplete_frameHi, frameComplete_frameLo, BitVec.extractLsb'_toNat, Nat.shiftRight_eq_div_pow]
  omega

/-- The success of FR_WAIT_HIGH accumulates the bit, then starts the next bit's FR_WAIT_LOW or completes the frame
(42_frame_reader.md R99, R101). -/
theorem edgeCore_of_bitHigh {s : State} {e : Word} (hp : s.phase = .frWaitHigh)
    (ho : s.waitOutcome ⟨.high, 500⟩ = .success e) :
    edgeCore s =
      (if s.bitidx.toNat + 1 < 40 then startWait .frWaitLow else frameComplete (shiftIn s.sr s.bitval))
        { s with
          elapsed := e, sr := shiftIn s.sr s.bitval, bitidx := s.bitidx + 1
          ie := s.ieAfter, done := s.doneAfter } := by
  rw [edgeCore_of_success (wait_of_frWaitHigh hp) ho, successStep, hp]
  by_cases hmore : s.bitidx.toNat + 1 < 40
  · simp only [bitHighDone, if_pos hmore]
    rfl
  · simp only [bitHighDone, if_neg hmore]
    rfl

/-- Settles O37: as for FR_WAIT_LOW, the success by `edgeCore_of_bitHigh`. -/
theorem frWaitHighAccumulatesTheBit : Obligations.FrWaitHighAccumulatesTheBit := by
  intro s hl hp hbits hr
  have hw := wait_of_frWaitHigh hp
  refine ⟨hw, latch (edgeCore s), step_of_legal hl hr, ?_⟩
  cases ho : s.waitOutcome ⟨.high, 500⟩ with
  | running k win =>
    obtain ⟨hlt, hno, -⟩ := twOutcome_running_iff.mp ho
    exact ⟨fun _ hthree hmatch => absurd ⟨hthree, hmatch⟩ hno, fun hle => absurd hlt hle.not_gt⟩
  | success e =>
    obtain ⟨hcount, -, hlt⟩ := waitOutcome_success_count ho
    have hidx : (s.bitidx + 1).toNat = s.bitidx.toNat + 1 := by bv_omega
    have hshift := shiftIn_toNat s.sr s.bitval
    refine ⟨fun _ _ _ => ?_, fun hle => absurd (hcount ▸ hlt) hle.not_gt⟩
    rw [edgeCore_of_bitHigh hp ho]
    by_cases hmore : s.bitidx.toNat + 1 < 40
    · rw [if_pos hmore]
      exact ⟨hcount, hshift, hidx, fun _ => ⟨rfl, rfl, rfl, rfl, rfl⟩, fun hlast => absurd hmore (by omega)⟩
    · rw [if_neg hmore]
      exact ⟨hcount, hshift, hidx, fun h => absurd h hmore,
        fun _ => ⟨rfl, frame_toNat_of_frameComplete _ s, rfl, rfl⟩⟩
  | timeout =>
    have hle := twOutcome_timeout_iff.mp ho
    rw [edgeCore_of_timeout hw ho, hp]
    exact ⟨fun hlt => absurd hlt hle.not_gt, fun _ => ⟨rfl, rfl, rfl, rfl, rfl, rfl, rfl, rfl⟩⟩

/-! ### The bits in their bytes -/

/-- The bits shifted in stand in the register in their order, the last one at bit 0 (42_frame_reader.md R100). -/
theorem foldl_shiftIn_getLsbD (bits : List Bool) (before : BitVec 40) (hlen : bits.length ≤ 40) (i : Nat)
    (hi : i < bits.length) : (bits.foldl shiftIn before).getLsbD (bits.length - 1 - i) = bits.getD i false := by
  induction bits using List.reverseRecOn with
  | nil => exact absurd hi (Nat.not_lt_zero i)
  | append_singleton bits b ih =>
    simp only [List.length_append, List.length_singleton] at hlen hi ⊢
    simp only [List.foldl_append, List.foldl_cons, List.foldl_nil, Nat.add_sub_cancel]
    obtain hlt | rfl := Nat.lt_succ_iff_lt_or_eq.mp hi
    · have hpos : bits.length - i = bits.length - 1 - i + 1 := by omega
      rw [hpos, shiftIn_getLsbD_succ _ _ (by omega), ih (by omega) hlt, List.getD_append _ _ _ _ hlt]
    · rw [Nat.sub_self, shiftIn_getLsbD_zero]
      simp

/-- At frame completion byte B(j + 1) is the j-th byte of the shift register from the top (42_frame_reader.md R101). -/
theorem frameComplete_byte (sr : BitVec 40) (s : State) {j : Nat} (hj : j < 5) :
    let t := frameComplete sr s
    [t.b1, t.b2, t.b3, t.b4, t.b5].getD j 0 = sr.extractLsb' (8 * (4 - j)) 8 := by
  have hbyte (start : Nat) (h : start + 8 ≤ 32) :
      (sr.extractLsb' 8 32).extractLsb' start 8 = sr.extractLsb' (8 + start) 8 := by
    ext i hi
    simp [show start + i < 32 by omega, Nat.add_assoc]
  match j, hj with
  | 0, _ => exact hbyte 24 (by omega)
  | 1, _ => exact hbyte 16 (by omega)
  | 2, _ => exact hbyte 8 (by omega)
  | 3, _ => exact hbyte 0 (by omega)
  | 4, _ => rfl

/-- Settles O38: the shifts put the bits in order into the register, whose bytes frame completion copies; the accept
clears the register. -/
theorem fortyBitsAssembleMsbFirst : Obligations.FortyBitsAssembleMsbFirst := by
  refine ⟨fun bits before s hlen => ?_, fun i s t hi hp hexec => ?_⟩
  · intro sr t i hi
    have hbit : sr.getLsbD (39 - i) = bits.getD i false := by
      have := foldl_shiftIn_getLsbD bits before hlen.le i (by omega)
      rwa [hlen] at this
    refine ⟨hbit, ?_⟩
    have hpos : 8 * (4 - i / 8) + (7 - i % 8) = 39 - i := by omega
    rw [frameComplete_byte sr s (by omega), BitVec.getLsbD_extractLsb', hpos, hbit]
    simp [show 7 - i % 8 < 8 by omega]
  · obtain ⟨bare, hacc⟩ := acceptOf_attempt hi
    rw [exec_eq, hacc, commandEdge, commandEdgeState, if_pos hp, finish_eq_next_iff] at hexec
    obtain ⟨-, rfl⟩ := hexec
    rfl

/-! ### What a failed attempt leaves -/

theorem busy_of_reading {s : State} (h : s.phase.isReading = true) : s.phase ≠ .idle := by
  intro hp
  simp [hp] at h

/-- Before its frame is complete an attempt ends at the timeout of a wait and nowhere else (44_control.md R122). -/
theorem reading_ends_by_timeout {s : State} (hl : s.Legal) (hp : s.phase.isReading = true)
    (hend : (controlStep s).1.phase = .idle) : ∃ w, s.wait = some w ∧ s.waitOutcome w = .timeout := by
  have hbusy := busy_of_reading hp
  have hdone : (controlStep s).2 = true := (control_done_iff s).mpr ⟨hbusy, hend⟩
  obtain hi | hd | ⟨w, hw⟩ | hv := phase_kinds hl.1
  · exact absurd hi hbusy
  · rw [control_of_drive hd] at hdone
    exact nomatch hdone
  · cases ho : s.waitOutcome w with
    | running k win =>
      rw [control_of_running hw ho] at hdone
      exact nomatch hdone
    | success e =>
      rw [control_of_success hw ho, (successStep_spec (isWait_of_wait hw) e).2] at hdone
      simp [hdone] at hp
    | timeout => exact ⟨w, hw, ho⟩
  · simp [hv] at hp

/-- A rejected frame changes neither DATA nor ERRINFO (60_exceptions.md R134). -/
theorem recordVerdict_of_not_ok {v : Verdict} {s : State} (h : (recordVerdict v s).result ≠ .ok) :
    (recordVerdict v s).data = s.data ∧ (recordVerdict v s).errInfo = s.errInfo := by
  cases v with
  | ok hum temp => exact absurd rfl h
  | checksumMismatch | humidityOutOfRange | temperatureOutOfRange => exact ⟨rfl, rfl⟩

/-- Settles O52: the edge that ends an attempt early is a timeout's, which keeps the zeros of the invariant; the edge of
VALIDATE keeps FRAME always, and DATA and ERRINFO unless the verdict is OK. -/
theorem failedAttemptLeavesNoPartialResult : Obligations.FailedAttemptLeavesNoPartialResult := by
  intro s t hinv hr h
  obtain ⟨hr', -⟩ | ⟨-, hl, rfl⟩ := step_eq_next_iff.mp h
  · simp [hr] at hr'
  rw [edgeState_eq]
  refine ⟨fun hp hend => ?_, fun hv hno => ?_⟩
  · obtain ⟨hhi, hlo, hdata⟩ := hinv.readingHasNoFrame hp
    rw [latch_phase, edgeCore_busy (busy_of_reading hp)] at hend
    obtain ⟨w, hw, ho⟩ := reading_ends_by_timeout hl hp hend
    rw [edgeCore_of_timeout hw ho]
    exact ⟨rfl, rfl, hhi, hlo, hdata⟩
  · have hbusy : s.phase ≠ .idle := by simp [hv]
    obtain ⟨-, hnone⟩ := hinv.busyHasNoResult hbusy
    have herr : s.errInfo = ErrInfo.zero := hinv.errInfoOnlyOfTimeout (by simp [hnone])
    obtain ⟨hhi, hlo⟩ := control_frameRegs_of_ne_frWaitHigh hl (by simp [hv])
    rw [edgeCore_busy hbusy, control_of_validate hv] at hno ⊢
    rw [control_of_validate hv] at hhi hlo
    obtain ⟨hdata, herr'⟩ := recordVerdict_of_not_ok hno
    exact ⟨hdata.trans (hinv.validatingHasNoData hv), herr'.trans herr, hhi, hlo⟩

end Sys2Proof.Machine
end

section
/-! The Checksum & Range Validator: its verdict on five bytes, the edge that records it, and the VALIDATE command from
its accept to its end (43_validator.md). -/

namespace Sys2Proof.Machine

/-! ### The verdict on five bytes -/

/-- Two bytes make a number of 16 bits (43_validator.md R106). -/
theorem tenths_lt (hi lo : Byte) : tenths hi lo < 2 ^ 16 := by
  have := hi.isLt
  have := lo.isLt
  unfold tenths
  omega

/-- The register of a Reading holds the tenths of the frame without loss (00_scope.md R9). -/
theorem ofNat_tenths_eq_iff (hi lo : Byte) (x : BitVec 16) :
    BitVec.ofNat 16 (tenths hi lo) = x ↔ x.toNat = tenths hi lo := by
  rw [← BitVec.toNat_inj, BitVec.toNat_ofNat, Nat.mod_eq_of_lt (tenths_lt hi lo), eq_comm]

section

variable {b1 b2 b3 b4 b5 : Byte}

theorem validate_of_mismatch (hsum : checksum b1 b2 b3 b4 ≠ b5.toNat) :
    validate b1 b2 b3 b4 b5 = .checksumMismatch :=
  if_pos hsum

theorem validate_of_humidity (hsum : checksum b1 b2 b3 b4 = b5.toNat) (hhum : 1000 < tenths b1 b2) :
    validate b1 b2 b3 b4 b5 = .humidityOutOfRange := by
  rw [validate, if_neg (not_not.mpr hsum), if_pos (by omega)]

theorem validate_of_temperature (hsum : checksum b1 b2 b3 b4 = b5.toNat) (hhum : tenths b1 b2 ≤ 1000)
    (htemp : 800 < tenths b3 b4) : validate b1 b2 b3 b4 b5 = .temperatureOutOfRange := by
  rw [validate, if_neg (not_not.mpr hsum), if_neg (by omega), if_pos (by omega)]

/-- Both bounds are accepted, and the lower ones never reject (43_validator.md R109, R110). -/
theorem validate_of_inRange (hsum : checksum b1 b2 b3 b4 = b5.toNat) (hhum : tenths b1 b2 ≤ 1000)
    (htemp : tenths b3 b4 ≤ 800) :
    validate b1 b2 b3 b4 b5 = .ok (BitVec.ofNat 16 (tenths b1 b2)) (BitVec.ofNat 16 (tenths b3 b4)) := by
  rw [validate, if_neg (not_not.mpr hsum), if_neg (by omega), if_neg (by omega)]

end

/-- Settles O40: the first check that fails decides the verdict, and none fails exactly for an OK one. -/
theorem validateOutcomeByChecksumThenRanges : Obligations.ValidateOutcomeByChecksumThenRanges := by
  intro b1 b2 b3 b4 b5 sum H T
  by_cases hsum : sum = b5.toNat
  · obtain hhum | hhum := Nat.lt_or_ge 1000 H
    · simp [validate_of_humidity hsum hhum, hsum, hhum]
    · obtain htemp | htemp := Nat.lt_or_ge 800 T
      · simp [validate_of_temperature hsum hhum htemp, hsum, hhum, htemp]
      · have hH (h : BitVec 16) : BitVec.ofNat 16 (tenths b1 b2) = h ↔ h.toNat = H := ofNat_tenths_eq_iff b1 b2 h
        have hT (t : BitVec 16) : BitVec.ofNat 16 (tenths b3 b4) = t ↔ t.toNat = T := ofNat_tenths_eq_iff b3 b4 t
        simp [validate_of_inRange hsum hhum htemp, hsum, hhum, htemp, hH, hT]
  · simp [validate_of_mismatch hsum, hsum]

/-! ### The edge that leaves VALIDATE -/

/-- RESULT and DATA tell the verdict `v`; DATA is `old` for a rejected frame (43_validator.md R113). -/
def State.Tells (s : State) (v : Verdict) (old : Reading) : Prop :=
  match v with
  | .ok h t => s.result = .ok ∧ s.data = ⟨h, t⟩
  | .checksumMismatch => s.result = .checksumMismatch ∧ s.data = old
  | .humidityOutOfRange => s.result = .humidityOutOfRange ∧ s.data = old
  | .temperatureOutOfRange => s.result = .temperatureOutOfRange ∧ s.data = old

section

variable (v : Verdict) (s : State)

@[simp] theorem recordVerdict_frameHi : (recordVerdict v s).frameHi = s.frameHi := by cases v <;> rfl

@[simp] theorem recordVerdict_frameLo : (recordVerdict v s).frameLo = s.frameLo := by cases v <;> rfl

@[simp] theorem recordVerdict_errInfo : (recordVerdict v s).errInfo = s.errInfo := by cases v <;> rfl

theorem recordVerdict_tells : (recordVerdict v s).Tells v s.data := by
  cases v <;> exact ⟨rfl, rfl⟩

end

/-- The edge of VALIDATE records the verdict; of the host's writes only one to CTRL counts (20_memory.md R46). -/
theorem edgeCore_of_validate {s : State} (h : s.phase = .validate) :
    edgeCore s = { recordVerdict s.verdict s with ie := s.ieAfter } := by
  rw [edgeCore_busy (by simp [h]), control_of_validate h]
  cases s.verdict <;> rfl

/-- Settles O41: the pins by the pin table, the sample by O32, the next state by `edgeCore_of_validate`. -/
theorem validatePhaseRecordsTheVerdict : Obligations.ValidatePhaseRecordsTheVerdict := by
  intro s hl hv hr
  obtain ⟨hpins, -⟩ := pinsFollowThePhase
  obtain ⟨-, hsample⟩ := lineIsSampledOnlyInInputMode
  obtain ⟨hoe, hout⟩ := hpins s (by simp [hv])
  obtain ⟨hidle, hdone⟩ := recordVerdict_phase s.verdict s
  refine ⟨hoe, hout, fun l => hsample s l (by simp [hv]), latch (edgeCore s), step_of_legal hl hr,
    inputsAdvance_edge s, ?_⟩
  rw [edgeCore_of_validate hv]
  exact ⟨hidle, hdone, recordVerdict_frameHi _ _, recordVerdict_frameLo _ _, recordVerdict_errInfo _ _,
    recordVerdict_elapsed _ _, recordVerdict_tells s.verdict s⟩

/-! ### The VALIDATE command -/

/-- Settles O42: the accept keeps FRAME and clears ERRINFO and DATA, and the next edge is the one of O41. -/
theorem validateCommandCompletesOneEdgeAfterAccept : Obligations.ValidateCommandCompletesOneEdgeAfterAccept := by
  intro s hl hp hr
  have hpins : (latch (acceptValidate s)).pins = s.portsAt 1 := (inputsAdvance_accept .validate s).pins
  obtain ⟨-, -, -, t, hstep, -, hidle, hdone, hhi, hlo, herr, -, htells⟩ :=
    validatePhaseRecordsTheVerdict (latch (acceptValidate s)) ⟨rfl, rfl⟩ rfl (hpins ▸ hr)
  exact ⟨_, t, exec_of_idle .validate hl hp, rfl, rfl, hstep, by simp [State.busy, hidle], hdone, hhi, hlo, herr,
    htells⟩

end Sys2Proof.Machine
end

section
/-! Facts about the phases and the two parts of an edge that the statements about CTL share. -/

namespace Sys2Proof.Machine

theorem taken_of_reading {p : Phase} (h : p.isReading = true) : p.taken = true := by
  cases p <;> simp at h ⊢

theorem reading_of_drive {p : Phase} (h : p.isDrive = true) : p.isReading = true := by
  cases p <;> simp at h ⊢

theorem reading_of_wait {p : Phase} (h : p.isWait = true) (h' : p ≠ .waitCmd) : p.isReading = true := by
  cases p <;> simp at h h' ⊢

theorem not_wait_of_drive {p : Phase} (h : p.isDrive = true) : p.isWait = false := by
  cases p <;> simp at h ⊢

/-- The last edge of a drive phase enters the table's next phase, a wait after HS_RELEASE (41_handshake.md R84). -/
theorem control_of_holdEnd {s : State} (h : s.phase.isDrive = true) (heq : s.hc.toNat + 1 = s.holdCycles) :
    controlStep s =
      ((if s.phase = .hsRelease then startWait else enterDrive) s.driveNext { s with hc := 0 }, false) := by
  rw [control_of_drive h, if_pos heq]
  obtain hp | hp | hp := drive_cases h <;> simp [hp, State.driveNext]

/-- The control part sets DONE only where it takes a busy block to IDLE (44_control.md R120). -/
theorem control_setDone_eq_false {s : State} (h : ¬ (s.phase ≠ .idle ∧ (controlStep s).1.phase = .idle)) :
    (controlStep s).2 = false := by
  rwa [← Bool.not_eq_true, control_done_iff]

/-- A busy edge that finds DONE at 0 is its control part, but for CTRL: there is nothing for the host to clear. -/
theorem edgeCore_of_undone {s : State} (hb : s.phase ≠ .idle) (hdone : s.done = false) :
    edgeCore s = { (controlStep s).1 with ie := s.ieAfter } := by
  have hafter : s.doneAfter = false := by simp [State.doneAfter, hdone]
  rw [edgeCore_busy hb, hafter]
  cases hc : (controlStep s).2 with
  | true => simp [← control_done_of_complete hc]
  | false => simp [← hdone, ← (control_keeps_result hc).1]

/-- No host write reaches the phase (20_memory.md R46). -/
theorem hostWrite_phase (s c : State) (b : Bool) : (hostWrite s b c).phase = c.phase := by
  unfold hostWrite
  repeat' split
  all_goals rfl

/-- A command that a legal block answers leads an idle block to its accept (44_control.md R118). -/
theorem exec_of_idle_eq_next {s t : State} {i : Instr} (hp : s.phase = .idle) (h : exec i s = .next t) :
    t = latch (acceptOf i s) := by
  rw [exec_eq, commandEdge, commandEdgeState, if_pos hp, finish_eq_next_iff] at h
  exact h.2

/-- The bit counter does not wrap in a frame (42_frame_reader.md R99). -/
theorem bitidx_succ_toNat {b : BitVec 6} (h : b.toNat < 40) : (b + 1).toNat = b.toNat + 1 := by
  bv_omega

end Sys2Proof.Machine
end

section
/-! CTL: the edge of a command, accepted or ignored, the quiet edge, the flag DONE and the transition table
(44_control.md). -/

namespace Sys2Proof.Machine

/-! ### The edge at which a command is written -/

/-- Settles O4: the word a host writes to CMD is the one `step` decodes. -/
theorem stepRunsTheWrittenCommand : Obligations.StepRunsTheWrittenCommand := by
  intro s hr hwe hidx
  have hcmd : s.commandWord = some s.pins.busWdata := by simp [State.commandWord, hwe, hidx]
  simp [step, hr, hcmd]

/-- Settles O19: the accept of READ and READ_BARE, field by field. -/
theorem readAndReadBareStartAnAttempt : Obligations.ReadAndReadBareStartAnAttempt := by
  intro s bare hl hp
  have hacc : acceptOf (if bare then .readBare else .read) = acceptAttempt bare := by cases bare <;> rfl
  refine ⟨_, exec_of_idle _ hl hp, inputsAdvance_accept _ s, ?_⟩
  rw [hacc]
  exact ⟨rfl, rfl, rfl, rfl, rfl, rfl, rfl, rfl, rfl, rfl, rfl, rfl, rfl, rfl, rfl, rfl, rfl, rfl⟩

/-- Settles O20: the accept of VALIDATE, field by field. -/
theorem validateStartsVal : Obligations.ValidateStartsVal := by
  intro s hl hp
  exact ⟨_, exec_of_idle .validate hl hp, inputsAdvance_accept .validate s, rfl, rfl, rfl, rfl, rfl, rfl, rfl, rfl, rfl,
    rfl, rfl, rfl, rfl, rfl, rfl, rfl, rfl, rfl⟩

/-- Settles O21: the accept of the waits, field by field. -/
theorem waitCommandsStartAWait : Obligations.WaitCommandsStartAWait := by
  intro s level hl hp
  cases level <;>
    exact ⟨_, exec_of_idle _ hl hp, inputsAdvance_accept _ s, rfl, rfl, rfl, rfl, rfl, rfl, rfl, rfl, rfl, rfl, rfl,
      rfl, rfl, rfl, rfl, rfl, rfl, rfl, rfl⟩

/-- Settles O23: a busy block's command edge is the control part, as is the edge without a write. -/
theorem commandsWhileBusyAreIgnored : Obligations.CommandsWhileBusyAreIgnored := by
  refine fun i s hb => ⟨?_, fun hl => ⟨_, exec_of_busy i hl hb⟩⟩
  rw [exec_eq, commandEdge, commandEdgeState, if_neg hb, step_withoutWrite]

/-- NOP and the reserved opcodes have an accept that changes nothing (44_control.md R123, R126). -/
theorem acceptOf_of_noEffect {i : Instr} (hi : i = .nop ∨ i = .reserved6 ∨ i = .reserved7) (s : State) :
    acceptOf i s = s := by
  obtain rfl | rfl | rfl := hi <;> rfl

/-- Settles O18: busy, by O23; idle, neither the accept nor the control part changes anything. -/
theorem nopAndReservedCommandsChangeNothing : Obligations.NopAndReservedCommandsChangeNothing := by
  intro s i hi
  have hacc := acceptOf_of_noEffect hi s
  refine ⟨?_, fun hl hp => ?_, by decide⟩
  · by_cases hp : s.phase = .idle
    · rw [exec_eq, commandEdge, commandEdgeState, if_pos hp, hacc, step_withoutWrite, control_of_idle hp]
    · exact (commandsWhileBusyAreIgnored i s hp).1
  · refine ⟨latch s, ?_, sameBlock_latch s, inputsAdvance_latch s⟩
    rw [exec_of_idle i hl hp, hacc]

/-! ### What an accept leaves unchanged -/

/-- CTRL, CMD, ELAPSED, WAIT_CFG and the unmapped words show no other field than these (20_memory.md R45). -/
theorem regValue_of_frame {s t : State} (hie : t.ie = s.ie) (helapsed : t.elapsed = s.elapsed)
    (hcfg : t.waitCfg = s.waitCfg) {idx : BitVec 4} (h2 : idx ≠ 2) (h3 : idx ≠ 3) (h4 : idx ≠ 4) (h5 : idx ≠ 5)
    (h7 : idx ≠ 7) : t.regValue idx = s.regValue idx := by
  have hcases : ∀ j : BitVec 4,
      j = 0 ∨ j = 1 ∨ j = 2 ∨ j = 3 ∨ j = 4 ∨ j = 5 ∨ j = 6 ∨ j = 7 ∨ j = 8 ∨ 9 ≤ j.toNat := by
    decide
  obtain rfl | rfl | h | h | h | h | rfl | h | rfl | hun := hcases idx
  · simp [State.regValue, hie]
  · rfl
  · exact absurd h h2
  · exact absurd h h3
  · exact absurd h h4
  · exact absurd h h5
  · exact helapsed
  · exact absurd h h7
  · simp [State.regValue, hcfg]
  · rw [regValue_of_unmapped t hun, regValue_of_unmapped s hun]

theorem acceptOf_ie_waitCfg (i : Instr) (s : State) :
    (acceptOf i s).ie = s.ie ∧ (acceptOf i s).waitCfg = s.waitCfg := by
  cases i <;> exact ⟨rfl, rfl⟩

/-- Settles O22: the words of the common frame by `regValue_of_frame`, the rest by the command's own accept. -/
theorem acceptedCommandsFrame : Obligations.AcceptedCommandsFrame := by
  intro i s t hp h
  obtain rfl := exec_of_idle_eq_next hp h
  obtain ⟨hie, hcfg⟩ := acceptOf_ie_waitCfg i s
  refine ⟨fun idx => regValue_of_frame hie (acceptOf_elapsed i s) hcfg, ?_⟩
  cases i with
  | nop | reserved6 | reserved7 =>
    exact ⟨fun _ => ⟨rfl, rfl⟩, fun _ _ => rfl, fun _ _ _ _ => rfl, fun _ => ⟨rfl, rfl, rfl, rfl, rfl⟩,
      fun _ => ⟨rfl, rfl, rfl⟩⟩
  | read | readBare => simp [acceptOf, acceptAttempt, acceptCommon]
  | validate => simp [acceptOf, acceptValidate, acceptCommon, State.regValue]
  | waitLow | waitHigh => simp [acceptOf, acceptWait, acceptCommon, State.regValue]

/-! ### The quiet edge and the inputs -/

/-- Settles O24: in IDLE the control part changes nothing, and nothing else is left of a quiet edge. -/
theorem idleBlockIsQuiescent : Obligations.IdleBlockIsQuiescent := by
  intro s hl hp hr hwe
  refine ⟨latch s, ?_, sameBlock_latch s, inputsAdvance_latch s⟩
  rw [step_of_legal hl hr, edgeCore_noWrite hwe, control_of_idle hp]

/-- Settles O8: `edgeState_inputs` for an edge without `rst`, `step_inputs` for every edge. -/
theorem inputsMoveAndParameterStays : Obligations.InputsMoveAndParameterStays := by
  refine ⟨fun s t hr h => ?_, fun s t h => ?_, cyclesPerUs_bounds⟩
  · obtain ⟨hr', -⟩ | ⟨-, -, rfl⟩ := step_eq_next_iff.mp h
    · simp [hr] at hr'
    · exact edgeState_inputs s
  · obtain ⟨hpins, hscript, hcycle, hrate⟩ := step_inputs h
    exact ⟨by simp only [State.cyclesPerUs, hrate], hpins, hscript, hcycle⟩

/-! ### DONE -/

/-- A write of STATUS adds to the control part what it does to DONE (44_control.md R121). -/
theorem edgeCore_of_statusWrite {s : State} (h : s.Writes 2) :
    edgeCore s =
      { (controlStep s).1 with
        done := doneAfterStatusWrite s.pins.busWdata (controlStep s).2 (controlStep s).1.done } := by
  obtain ⟨hwe, hidx⟩ := h
  rw [edgeCore, commandWord_of_ne_cmd (by simp [hidx])]
  simp [hostWrite, hwe, hidx]

/-- Settles O16: a completion sets DONE (`edgeCore_busy`); a write of STATUS is `edgeCore_of_statusWrite`. -/
theorem doneSetWinsOverClear : Obligations.DoneSetWinsOverClear := by
  intro s t hr h
  obtain ⟨hr', -⟩ | ⟨-, hl, rfl⟩ := step_eq_next_iff.mp h
  · simp [hr] at hr'
  rw [edgeState_eq]
  refine ⟨fun ⟨hb, hend⟩ => ?_, fun hno hw hbit => ?_, fun hw hbit => ?_⟩
  · rw [latch_phase, edgeCore_busy hb] at hend
    have hset : (controlStep s).2 = true := (control_done_iff s).mpr ⟨hb, hend⟩
    rw [edgeCore_busy hb, hset]
    rfl
  · rw [edgeCore_of_statusWrite hw] at hno ⊢
    simp [doneAfterStatusWrite, control_setDone_eq_false hno, hbit]
  · apply step_eq_withoutWrite hr
    rw [edgeCore_of_statusWrite hw]
    simp only [doneAfterStatusWrite, hbit, Bool.false_and, Bool.false_eq_true, if_false]

/-! ### The transition table -/

/-- The control part of a busy edge goes where the table says (44_control.md R122). -/
theorem control_phase {s : State} (hl : s.Legal) (hr : s.pins.rst = false) (hb : s.phase ≠ .idle) :
    (controlStep s).1.phase = s.tablePhase := by
  simp only [State.tablePhase, hr, hb, Bool.false_eq_true, if_false]
  obtain hi | hd | ⟨w, hw⟩ | hv := phase_kinds hl.1
  · exact absurd hi hb
  · rw [if_pos hd]
    by_cases heq : s.hc.toNat + 1 = s.holdCycles
    · rw [if_pos heq, control_of_holdEnd hd heq]
      split_ifs <;> rfl
    · rw [if_neg heq, control_of_drive hd, if_neg heq]
  · have hwait := isWait_of_wait hw
    have hd : s.phase.isDrive ≠ true := fun hd => by simp [not_wait_of_drive hd] at hwait
    have hv : s.phase ≠ .validate := fun hv => by simp [hv] at hwait
    rw [if_neg hd, if_neg hv, hw]
    exact control_phase_of_wait hw
  · rw [control_of_validate hv, (recordVerdict_phase _ _).1]
    simp [hv]

/-- An idle block leaves IDLE by an accept alone (44_control.md R122). -/
theorem edgeCore_phase_of_idle {s : State} (hr : s.pins.rst = false) (hp : s.phase = .idle) :
    (edgeCore s).phase = s.tablePhase := by
  obtain hc | ⟨-, -, hc⟩ := commandWord_none_or s
  · have hacc : s.accepts = none := by simp [State.accepts, hc]
    rw [edgeCore_idle_noCommand hp hc, hostWrite_phase]
    simp [State.tablePhase, hr, hp, hacc]
  · simp only [edgeCore, hc, hp, if_true, State.tablePhase, State.accepts, hr, Bool.false_eq_true, if_false, and_self]
    cases decodeWord s.pins.busWdata <;> simp [acceptOf, acceptAttempt, acceptValidate, acceptWait, Instr.opcode, hp]

/-- Settles O45: reset leads to IDLE, an idle block to `edgeCore_phase_of_idle`, a busy one to `control_phase`. -/
theorem phaseFollowsTheTransitionTable : Obligations.PhaseFollowsTheTransitionTable := by
  intro s t h
  obtain ⟨hr, rfl⟩ | ⟨hr, hl, rfl⟩ := step_eq_next_iff.mp h
  · simp [State.tablePhase, hr, State.reset]
  · rw [edgeState_eq, latch_phase]
    by_cases hp : s.phase = .idle
    · exact edgeCore_phase_of_idle hr hp
    · rw [edgeCore_busy hp]
      exact control_phase hl hr hp

end Sys2Proof.Machine
end

section
/-! The invariant: one rule for each operation on the state, then the control part, the accepts, the host's writes and
reset. -/

namespace Sys2Proof.Machine

/-! ### IDLE -/

/-- The part of the invariant that does not speak of the phase. -/
structure State.RecordInv (s : State) : Prop where
  produced : s.result.produced = true
  doneHasResult : s.done = true → s.result ≠ .none
  errInfoOnlyOfTimeout : s.result ≠ .timeout → s.errInfo = ErrInfo.zero
  errInfoSite : s.result = .timeout → s.errInfo.site.isWait = true
  dataInRange : s.data.humRaw.toNat ≤ 1000 ∧ s.data.tempRaw.toNat ≤ 800
  noDataAfterRejection :
    s.result = .checksumMismatch ∨ s.result = .humidityOutOfRange ∨ s.result = .temperatureOutOfRange →
      s.data = Reading.zero
  bitsCounted : s.bitidx.toNat ≤ 40 ∧ s.sr.toNat < 2 ^ s.bitidx.toNat
  elapsedOfSuccess : s.elapsed = 0 ∨ 3 ≤ s.elapsed.toNat

theorem recordInv_of_inv {s : State} (h : s.Inv) : s.RecordInv :=
  { h with produced := h.legal.2 }

/-- An idle block is bound by the record of its last command alone. -/
theorem inv_of_idle {s : State} (hp : s.phase = .idle) (h : s.RecordInv) : s.Inv :=
  { h with
    legal := ⟨by simp [hp], h.produced⟩
    busyHasNoResult := fun hb => absurd hp hb
    holdBelowLength := fun hd => absurd hp (busy_of_drive hd)
    waitBelowTimeout := fun _ hw => absurd hp (busy_of_wait hw)
    windowOfThisWait := fun hw => by simp [hp] at hw
    readingHasNoFrame := fun hr => absurd hp (busy_of_reading hr)
    validatingHasNoData := fun hv => by simp [hp] at hv
    frameNotFull := fun hf => by simp [hp] at hf
    handshakeHasNoBits := fun hr => absurd hp (busy_of_reading hr)
    bareSkipsStartBit := fun _ => by simp [hp] }

theorem inv_resetEdge (s : State) : (resetEdge s).Inv :=
  inv_of_idle rfl { recordInv_of_inv invariantHoldsAtReset with }

/-- The synchronizer and the inputs play no part in the invariant. -/
theorem inv_latch {s : State} (h : s.Inv) : (latch s).Inv :=
  { h with }

/-! ### The end of a command -/

theorem errInfo_of_busy {s : State} (h : s.Inv) (hb : s.phase ≠ .idle) : s.errInfo = ErrInfo.zero :=
  h.errInfoOnlyOfTimeout (by simp [(h.busyHasNoResult hb).2])

/-- Completion with a code other than TIMEOUT's, DATA being 0 unless the code is OK (60_exceptions.md R134). -/
theorem inv_complete {s : State} {code : Result} (h : s.RecordInv) (herr : s.errInfo = ErrInfo.zero)
    (hcode : code.produced = true ∧ code ≠ .none ∧ code ≠ .timeout) (hdata : code ≠ .ok → s.data = Reading.zero) :
    (complete code s).Inv := by
  obtain ⟨hproduced, hnone, htimeout⟩ := hcode
  exact inv_of_idle rfl
    { h with
      produced := hproduced
      doneHasResult := fun _ => hnone
      errInfoOnlyOfTimeout := fun _ => herr
      errInfoSite := fun ht => absurd ht htimeout
      noDataAfterRejection := fun hr => hdata (by rintro rfl; simp at hr) }

/-- A timeout's site is a wait (60_exceptions.md R133). -/
theorem inv_raiseTimeout {s : State} {w : Wait} (h : s.Inv) (hw : s.wait = some w) :
    (raiseTimeout w.level s.phase s.bitidx w.timeoutUs s).Inv :=
  inv_of_idle rfl
    { recordInv_of_inv h with
      produced := rfl
      doneHasResult := fun _ => by simp
      errInfoOnlyOfTimeout := fun hne => absurd rfl hne
      errInfoSite := fun _ => isWait_of_wait hw
      noDataAfterRejection := fun hr => by simp at hr }

/-- The edge that leaves VALIDATE records an OK Reading in range, or keeps the DATA of 0 (43_validator.md R113). -/
theorem inv_recordVerdict {s : State} (h : s.Inv) (hp : s.phase = .validate) : (recordVerdict s.verdict s).Inv := by
  have hb : s.phase ≠ .idle := by simp [hp]
  have hrecord := recordInv_of_inv h
  have herr := errInfo_of_busy h hb
  have hdata := h.validatingHasNoData hp
  cases hv : s.verdict with
  | ok hum temp =>
    obtain ⟨-, hnone⟩ := h.busyHasNoResult hb
    refine inv_complete (s := { s with data := ⟨hum, temp⟩ }) ?_ herr (by decide) (fun hne => absurd rfl hne)
    exact { hrecord with
      dataInRange := validate_ok_bounds hv
      noDataAfterRejection := fun hr => by simp [hnone] at hr }
  | checksumMismatch | humidityOutOfRange | temperatureOutOfRange =>
    exact inv_complete hrecord herr (by decide) fun _ => hdata

/-! ### The phases of a running command -/

/-- What a READ or READ_BARE holds before frame completion, whatever its phase (70_reset_and_hazards.md R155). -/
structure State.AttemptInv (s : State) : Prop extends s.RecordInv where
  unrecorded : s.done = false ∧ s.result = .none
  frameHi : s.frameHi = 0
  frameLo : s.frameLo = 0
  data : s.data = Reading.zero

theorem attemptInv_of_inv {s : State} (h : s.Inv) (hp : s.phase.isReading = true) : s.AttemptInv := by
  obtain ⟨hhi, hlo, hdata⟩ := h.readingHasNoFrame hp
  exact { recordInv_of_inv h with
    unrecorded := h.busyHasNoResult (busy_of_reading hp)
    frameHi := hhi
    frameLo := hlo
    data := hdata }

/-- Entering a drive phase, before the first bit (41_handshake.md R81). -/
theorem inv_enterDrive {s : State} {p : Phase} (h : s.AttemptInv) (hp : p.isDrive = true) (hbits : s.bitidx = 0) :
    (enterDrive p s).Inv :=
  have hr := reading_of_drive hp
  have hw := not_wait_of_drive hp
  { h with
    legal := ⟨taken_of_reading hr, h.produced⟩
    busyHasNoResult := fun _ => h.unrecorded
    holdBelowLength := fun hd => (holdCycles_bounds hd).1
    waitBelowTimeout := fun _ h' => absurd (isWait_of_wait h') (by simp [hw])
    windowOfThisWait := fun h' => absurd h' (by simp [hw])
    readingHasNoFrame := fun _ => ⟨h.frameHi, h.frameLo, h.data⟩
    validatingHasNoData := fun _ => h.data
    frameNotFull := fun _ => by simp [hbits]
    handshakeHasNoBits := fun _ _ => hbits
    bareSkipsStartBit := fun _ => ⟨fun hq => by subst hq; simp at hp, fun hq => by subst hq; simp at hp⟩ }

/-- A wait of an attempt begins with no sample taken (40_transition_waiter.md R67). -/
theorem inv_startWait {s : State} {p : Phase} (h : s.AttemptInv) (hr : p.isReading = true) (hw : p.isWait = true)
    (hfull : p.isFrame = true → s.bitidx.toNat < 40) (hbits : p.isFrame = false → s.bitidx = 0)
    (hbare : s.bare = true → p ≠ .hsAwaitStartLow ∧ p ≠ .hsAwaitStartHigh) : (startWait p s).Inv :=
  { h with
    legal := ⟨taken_of_reading hr, h.produced⟩
    busyHasNoResult := fun _ => h.unrecorded
    holdBelowLength := fun hd => absurd hw (by simp [not_wait_of_drive (p := p) hd])
    waitBelowTimeout := fun _ _ => .inl rfl
    windowOfThisWait := fun _ _ => Nat.one_pos
    readingHasNoFrame := fun _ => ⟨h.frameHi, h.frameLo, h.data⟩
    validatingHasNoData := fun _ => h.data
    frameNotFull := hfull
    handshakeHasNoBits := fun _ => hbits
    bareSkipsStartBit := hbare }

/-- In VALIDATE no DATA stands yet (43_validator.md R113). -/
theorem inv_of_validate {s : State} (hp : s.phase = .validate) (h : s.RecordInv)
    (hrecord : s.done = false ∧ s.result = .none) (hdata : s.data = Reading.zero) : s.Inv :=
  { h with
    legal := ⟨by simp [hp], h.produced⟩
    busyHasNoResult := fun _ => hrecord
    holdBelowLength := fun hd => by simp [hp] at hd
    waitBelowTimeout := fun _ hw => by simp [State.wait, hp] at hw
    windowOfThisWait := fun hw => by simp [hp] at hw
    readingHasNoFrame := fun hr => by simp [hp] at hr
    validatingHasNoData := fun _ => hdata
    frameNotFull := fun hf => by simp [hp] at hf
    handshakeHasNoBits := fun hr => by simp [hp] at hr
    bareSkipsStartBit := fun _ => by simp [hp] }

/-! ### The control part -/

/-- A drive phase below its length counts, and at its length enters the next phase (41_handshake.md R81). -/
theorem inv_control_of_drive {s : State} (h : s.Inv) (hd : s.phase.isDrive = true) : (controlStep s).1.Inv := by
  have hr := reading_of_drive hd
  have hbits : s.bitidx = 0 := h.handshakeHasNoBits hr (by obtain hp | hp | hp := drive_cases hd <;> simp [hp])
  by_cases heq : s.hc.toNat + 1 = s.holdCycles
  · have hattempt : State.AttemptInv { s with hc := 0 } := { attemptInv_of_inv h hr with }
    rw [control_of_holdEnd hd heq]
    obtain hp | hp | hp := drive_cases hd
    · simpa [hp] using inv_enterDrive hattempt (by simp [State.driveNext, hp]) hbits
    · simpa [hp] using inv_enterDrive hattempt (by simp [State.driveNext, hp]) hbits
    · have hnext : s.driveNext = .hsAwaitSensorHigh := by rw [State.driveNext, hp]
      simpa [hp, hnext] using inv_startWait hattempt (p := .hsAwaitSensorHigh) rfl rfl (fun hf => by simp at hf)
        (fun _ => hbits) fun _ => by simp
  · have hlt := h.holdBelowLength hd
    have hlen := (holdCycles_bounds hd).2
    rw [control_of_drive hd, if_neg heq]
    refine { h with holdBelowLength := fun _ => ?_ }
    show (s.hc + 1).toNat < s.holdCycles
    bv_omega

/-- A wait that runs on stays below its timeout, and its window holds its own samples alone (40_transition_waiter.md
R71). -/
theorem inv_of_running {s : State} {w : Wait} {k : Word} {win : BitVec 3} (h : s.Inv) (hw : s.wait = some w)
    (ho : s.waitOutcome w = .running k win) : State.Inv { s with k := k, win := win } := by
  obtain ⟨hlt, -, rfl, rfl⟩ := twOutcome_running_iff.mp ho
  have hk := toNat_count (cyclesPerUs_bounds s).2 hlt
  refine { h with waitBelowTimeout := fun w' hw' => .inr ?_, windowOfThisWait := fun hp hle => ?_ }
  · obtain rfl : w' = w := Option.some.inj (hw'.symm.trans hw)
    exact hk.trans_lt hlt
  · show (shiftWindow s.win s.sample).toNat < 2 ^ (BitVec.ofNat 32 (s.k.toNat + 1)).toNat
    rw [hk] at hle ⊢
    have hwin := h.windowOfThisWait hp (by omega)
    have hbit := (levelBit s.sample).isLt
    rw [shiftWindow_toNat, pow_succ]
    omega

/-- Every bit shifted in is counted (10_state.md R37). -/
theorem bitsCounted_shiftIn {s : State} (h : s.Inv) (hp : s.phase.isFrame = true) :
    (s.bitidx + 1).toNat ≤ 40 ∧ (shiftIn s.sr s.bitval).toNat < 2 ^ (s.bitidx + 1).toNat := by
  have hlt := h.frameNotFull hp
  obtain ⟨-, hsr⟩ := h.bitsCounted
  have hbit := s.bitval.toNat_lt
  have hmod := Nat.mod_le (2 * s.sr.toNat + s.bitval.toNat) (2 ^ 40)
  rw [bitidx_succ_toNat hlt, shiftIn_toNat, pow_succ]
  omega

/-- The wait that a handshake wait's success leads to, in either mode (41_handshake.md R85–R89). -/
theorem successPhase_of_handshake {s : State} (h : s.Inv) (hp : s.phase ≠ .waitCmd) (hf : s.phase.isFrame = false)
    (hw : s.successPhase.isWait = true) :
    s.successPhase.isReading = true ∧
      (s.bare = true → s.successPhase ≠ .hsAwaitStartLow ∧ s.successPhase ≠ .hsAwaitStartHigh) := by
  cases hq : s.phase with
  | hsAwaitSensorHigh | hsAwaitAckLow | hsAwaitStartHigh => simp [State.successPhase, hq]
  | hsAwaitAckHigh => cases hb : s.bare <;> simp [State.successPhase, hq, hb]
  | hsAwaitStartLow => simpa [State.successPhase, hq] using h.bareSkipsStartBit
  | waitCmd => exact absurd hq hp
  | frWaitLow | frWaitHigh => simp [hq] at hf
  | idle | hsIdleHigh | hsStartLow | hsRelease | validate | unused13 | unused14 | unused15 =>
    simp [State.successPhase, hq] at hw

/-- A success starts the next wait with its bits counted, completes the frame, or completes WAIT_CMD
(44_control.md R122). -/
theorem inv_of_success {s : State} {w : Wait} {e : Word} (h : s.Inv) (hw : s.wait = some w)
    (ho : s.waitOutcome w = .success e) : (successStep s e { s with elapsed := e }).1.Inv := by
  obtain ⟨-, hthree, -⟩ := waitOutcome_success_count ho
  have he : State.Inv { s with elapsed := e } := { h with elapsedOfSuccess := .inr hthree }
  have hb := busy_of_wait hw
  have hattempt (hp : s.phase.isReading = true) : State.AttemptInv { s with elapsed := e } := attemptInv_of_inv he hp
  obtain ⟨-, hs⟩ | ⟨hp, hf, hnext, hs⟩ | ⟨hp, hs⟩ | ⟨hp, hmore, hs⟩ | ⟨hp, hlast, hs⟩ :=
    successStep_cases (e := e) (isWait_of_wait hw) rfl
  all_goals rw [hs]
  · exact inv_complete (recordInv_of_inv he) (errInfo_of_busy he hb) (by decide) fun hne => absurd rfl hne
  · have hr : s.phase.isReading = true := reading_of_wait (isWait_of_wait hw) hp
    have hbits : s.bitidx = 0 := h.handshakeHasNoBits hr hf
    obtain ⟨hrnext, hbare⟩ := successPhase_of_handshake h hp hf hnext
    exact inv_startWait (hattempt hr) hrnext hnext (fun _ => by simp [hbits]) (fun _ => hbits) hbare
  · have hr : s.phase.isReading = true := by simp [hp]
    exact inv_startWait { hattempt hr with } rfl rfl (fun _ => h.frameNotFull (by simp [hp]))
      (fun hf => by simp at hf) fun _ => by simp
  · have hr : s.phase.isReading = true := by simp [hp]
    have hbits := bitsCounted_shiftIn h (by simp [hp])
    exact inv_startWait { hattempt hr with bitsCounted := hbits } rfl rfl
      (fun _ => by rwa [← bitidx_succ_toNat (by omega)] at hmore) (fun hf => by simp at hf) fun _ => by simp
  · have hr : s.phase.isReading = true := by simp [hp]
    have hbits := bitsCounted_shiftIn h (by simp [hp])
    obtain ⟨-, -, hdata⟩ := h.readingHasNoFrame hr
    exact inv_of_validate rfl { recordInv_of_inv he with bitsCounted := hbits } (h.busyHasNoResult hb) hdata

/-- The control part keeps the invariant in every phase. -/
theorem inv_control {s : State} (h : s.Inv) : (controlStep s).1.Inv := by
  obtain hi | hd | ⟨w, hw⟩ | hv := phase_kinds h.legal.1
  · rw [control_of_idle hi]
    exact h
  · exact inv_control_of_drive h hd
  · cases ho : s.waitOutcome w with
    | running k win => rw [control_of_running hw ho]; exact inv_of_running h hw ho
    | success e => rw [control_of_success hw ho]; exact inv_of_success h hw ho
    | timeout => rw [control_of_timeout hw ho]; exact inv_raiseTimeout h hw
  · rw [control_of_validate hv]
    exact inv_recordVerdict h hv

/-! ### The accepts -/

/-- Every accept clears the record of the last command (44_control.md R118). -/
theorem recordInv_acceptCommon {s : State} (h : s.RecordInv) : (acceptCommon s).RecordInv :=
  { h with
    produced := rfl
    doneHasResult := fun hd => nomatch hd
    errInfoOnlyOfTimeout := fun _ => rfl
    errInfoSite := fun ht => nomatch ht
    noDataAfterRejection := fun hr => by simp at hr }

theorem inv_acceptAttempt {s : State} (h : s.RecordInv) (bare : Bool) : (acceptAttempt bare s).Inv :=
  inv_enterDrive
    { recordInv_acceptCommon h with
      dataInRange := invariantHoldsAtReset.dataInRange
      noDataAfterRejection := fun _ => rfl
      bitsCounted := invariantHoldsAtReset.bitsCounted
      unrecorded := ⟨rfl, rfl⟩
      frameHi := rfl
      frameLo := rfl
      data := rfl } rfl rfl

theorem inv_acceptValidate {s : State} (h : s.RecordInv) : (acceptValidate s).Inv :=
  inv_of_validate rfl
    { recordInv_acceptCommon h with
      dataInRange := invariantHoldsAtReset.dataInRange
      noDataAfterRejection := fun _ => rfl } ⟨rfl, rfl⟩ rfl

theorem inv_acceptWait {s : State} (h : s.RecordInv) (l : Level) : (acceptWait l s).Inv :=
  { recordInv_acceptCommon h with
    legal := ⟨rfl, rfl⟩
    busyHasNoResult := fun _ => ⟨rfl, rfl⟩
    holdBelowLength := fun hd => nomatch hd
    waitBelowTimeout := fun _ _ => .inl rfl
    windowOfThisWait := fun _ _ => Nat.one_pos
    readingHasNoFrame := fun hr => nomatch hr
    validatingHasNoData := fun hv => nomatch hv
    frameNotFull := fun hf => nomatch hf
    handshakeHasNoBits := fun hr => nomatch hr
    bareSkipsStartBit := fun _ => by simp }

theorem inv_acceptOf {s : State} (i : Instr) (h : s.Inv) : (acceptOf i s).Inv := by
  have hrecord := recordInv_of_inv h
  cases i with
  | nop | reserved6 | reserved7 => exact h
  | read => exact inv_acceptAttempt hrecord false
  | readBare => exact inv_acceptAttempt hrecord true
  | validate => exact inv_acceptValidate hrecord
  | waitLow => exact inv_acceptWait hrecord .low
  | waitHigh => exact inv_acceptWait hrecord .high

/-! ### The edge -/

/-- A host's write to an idle block can clear DONE but not set it (44_control.md R121). -/
theorem inv_hostWrite_of_idle {s : State} (h : s.Inv) (hp : s.phase = .idle) (hc : s.commandWord = none) :
    (hostWrite s false s).Inv := by
  cases hwe : s.pins.busWe with
  | false => simpa [hostWrite, hwe] using h
  | true =>
    have hcmd : wordIndex s.pins.busAddr ≠ 1 := by
      intro hidx
      simp [State.commandWord, hwe, hidx] at hc
    rw [hostWrite_of_idle hp hwe hcmd]
    refine inv_of_idle hp { recordInv_of_inv h with doneHasResult := fun hd => h.doneHasResult ?_ }
    by_contra hdone
    simp [hdone] at hd

theorem inv_edgeCore {s : State} (h : s.Inv) : (edgeCore s).Inv := by
  by_cases hp : s.phase = .idle
  · obtain hc | ⟨-, -, hc⟩ := commandWord_none_or s
    · rw [edgeCore_idle_noCommand hp hc]
      exact inv_hostWrite_of_idle h hp hc
    · simpa [edgeCore, hc, hp] using inv_acceptOf _ h
  · rw [edgeCore_of_undone hp (h.busyHasNoResult hp).1]
    exact { inv_control h with }

/-- Settles O44: a reset edge leads to the reset state, any other keeps the invariant by `inv_edgeCore`. -/
theorem stepKeepsTheInvariant : Obligations.StepKeepsTheInvariant := by
  intro s h
  cases hr : s.pins.rst with
  | true => exact ⟨_, step_of_rst hr, inv_resetEdge s⟩
  | false => exact ⟨_, step_of_legal h.legal hr, inv_latch (inv_edgeCore h)⟩

end Sys2Proof.Machine
end

section
/-! How long a command lasts: an edge of a busy block ends the command or lowers the bound on the rest of it; READ and
READ_BARE start with the longest-READ figure (44_control.md R124, R127). -/

namespace Sys2Proof.Machine

/-! ### The bound by phase -/

/-- A frame's edges are those of its next bit and of the rest (42_frame_reader.md R99). -/
theorem frameEdges_succ (s : State) {b : Nat} (h : b < 40) :
    s.frameEdges b = 2 * s.longestWait toBitUs + s.frameEdges (b + 1) := by
  obtain ⟨d, hd⟩ : ∃ d, 40 - b = d + 1 := ⟨39 - b, by omega⟩
  rw [State.frameEdges, State.frameEdges, hd, show 40 - (b + 1) = d by omega]
  ring

theorem frameEdges_last (s : State) : s.frameEdges 40 = 1 := by
  simp [State.frameEdges]

/-- The bound on the edges after the success of the wait that an attempt is in. -/
def State.edgesAfterWait (s : State) : Nat :=
  match s.phase with
  | .hsAwaitSensorHigh => 2 * s.longestWait toHsUs + 2 * s.longestWait toStartUs + s.frameEdges 0
  | .hsAwaitAckLow => s.longestWait toHsUs + 2 * s.longestWait toStartUs + s.frameEdges 0
  | .hsAwaitAckHigh => 2 * s.longestWait toStartUs + s.frameEdges 0
  | .hsAwaitStartLow => s.longestWait toStartUs + s.frameEdges 0
  | .hsAwaitStartHigh => s.frameEdges 0
  | .frWaitLow => s.longestWait toBitUs + s.frameEdges (s.bitidx.toNat + 1)
  | .frWaitHigh => s.frameEdges (s.bitidx.toNat + 1)
  | _ => 0

/-- In a wait of an attempt the bound is what is left of the wait and what comes after it. -/
theorem edgesLeft_of_wait {s : State} {w : Wait} (hw : s.wait = some w) (hp : s.phase ≠ .waitCmd) :
    s.edgesLeft = s.longestWait w.timeoutUs - s.k.toNat + s.edgesAfterWait := by
  cases hq : s.phase with
  | waitCmd => exact absurd hq hp
  | hsAwaitSensorHigh | hsAwaitAckLow | hsAwaitAckHigh | hsAwaitStartLow | hsAwaitStartHigh | frWaitLow
  | frWaitHigh =>
    simp only [State.wait, hq, Option.some.injEq] at hw
    subst hw
    simp only [State.edgesLeft, State.edgesAfterWait, hq, Nat.add_assoc]
  | idle | hsIdleHigh | hsStartLow | hsRelease | validate | unused13 | unused14 | unused15 =>
    simp [State.wait, hq] at hw

theorem edgesAfterWait_pos {s : State} (hw : s.phase.isWait = true) (hp : s.phase ≠ .waitCmd) :
    0 < s.edgesAfterWait := by
  cases hq : s.phase with
  | waitCmd => exact absurd hq hp
  | hsAwaitSensorHigh | hsAwaitAckLow | hsAwaitAckHigh | hsAwaitStartLow | hsAwaitStartHigh | frWaitLow
  | frWaitHigh => simp [State.edgesAfterWait, hq, State.frameEdges]
  | idle | hsIdleHigh | hsStartLow | hsRelease | validate | unused13 | unused14 | unused15 => simp [hq] at hw

theorem wait_of_waitCmd {s : State} (hp : s.phase = .waitCmd) : s.wait = some ⟨s.wlevel, s.waitCfg⟩ := by
  rw [State.wait, hp]

theorem edgesLeft_of_waitCmd {s : State} (hp : s.phase = .waitCmd) :
    s.edgesLeft = max (usToCycles s.cyclesPerUs s.waitCfg) 1 - s.k.toNat := by
  simp only [State.edgesLeft, hp]

theorem edgesLeft_of_validate {s : State} (hp : s.phase = .validate) : s.edgesLeft = 1 := by
  simp only [State.edgesLeft, hp]

/-- The bound on the edges after a drive phase. -/
def State.edgesAfterDrive (s : State) : Nat :=
  match s.phase with
  | .hsIdleHigh =>
    usToCycles s.cyclesPerUs tStartLowUs + nRelease + 3 * s.longestWait toHsUs + 2 * s.longestWait toStartUs +
      s.frameEdges 0
  | .hsStartLow =>
    nRelease + 3 * s.longestWait toHsUs + 2 * s.longestWait toStartUs + s.frameEdges 0
  | _ => 3 * s.longestWait toHsUs + 2 * s.longestWait toStartUs + s.frameEdges 0

theorem edgesLeft_of_drive {s : State} (hd : s.phase.isDrive = true) :
    s.edgesLeft = s.holdCycles - s.hc.toNat + s.edgesAfterDrive := by
  obtain hp | hp | hp := drive_cases hd <;> simp only [State.edgesLeft, State.edgesAfterDrive, hp] <;> omega

/-- While a command runs there is an edge left (44_control.md R127). -/
theorem edgesLeft_pos {s : State} (h : s.Inv) (hb : s.phase ≠ .idle) : 0 < s.edgesLeft := by
  obtain hi | hd | ⟨w, hw⟩ | hv := phase_kinds h.legal.1
  · exact absurd hi hb
  · have hlt := h.holdBelowLength hd
    rw [edgesLeft_of_drive hd]
    omega
  · by_cases hp : s.phase = .waitCmd
    · have hbelow := h.waitBelowTimeout _ (wait_of_waitCmd hp)
      rw [edgesLeft_of_waitCmd hp]
      obtain hk | hk := hbelow
      · simp [hk]
      · exact Nat.sub_pos_of_lt (lt_max_of_lt_left hk)
    · have hpos := edgesAfterWait_pos (isWait_of_wait hw) hp
      rw [edgesLeft_of_wait hw hp]
      omega
  · rw [edgesLeft_of_validate hv]
    exact Nat.one_pos

/-! ### One edge -/

/-- The bounds are the same at the same clock rate (00_scope.md R7). -/
theorem bounds_of_rate {s t : State} (h : t.cyclesPerUsPred = s.cyclesPerUsPred) :
    t.cyclesPerUs = s.cyclesPerUs ∧ t.longestWait = s.longestWait ∧ t.frameEdges = s.frameEdges := by
  have hrate : t.cyclesPerUs = s.cyclesPerUs := by rw [State.cyclesPerUs, State.cyclesPerUs, h]
  have hwait : t.longestWait = s.longestWait := by funext us; rw [State.longestWait, State.longestWait, hrate]
  exact ⟨hrate, hwait, by funext b; rw [State.frameEdges, State.frameEdges, hwait]⟩

/-- The next phase of the drive phases starts with the bound that was left to it. -/
theorem edgesLeft_of_driveNext {s t : State} (hd : s.phase.isDrive = true) (hp : t.phase = s.driveNext) (hhc : t.hc = 0)
    (hk : s.phase = .hsRelease → t.k = 0) (hr : t.cyclesPerUsPred = s.cyclesPerUsPred) :
    t.edgesLeft = s.edgesAfterDrive := by
  obtain ⟨hrate, hwait, hframe⟩ := bounds_of_rate hr
  have hhc0 : t.hc.toNat = 0 := by simp [hhc]
  obtain hq | hq | hq := drive_cases hd <;> simp only [State.driveNext, hq] at hp
  · simp only [State.edgesLeft, State.edgesAfterDrive, State.holdCycles, hq, hp, hhc0, hrate, hwait, hframe,
      Nat.sub_zero]
  · simp only [State.edgesLeft, State.edgesAfterDrive, State.holdCycles, hq, hp, hhc0, hwait, hframe, Nat.sub_zero]
  · have hk0 : t.k.toNat = 0 := by simp [hk hq]
    simp only [State.edgesLeft, State.edgesAfterDrive, hq, hp, hk0, hwait, hframe]
    omega

/-- The wait after a handshake wait starts with no more than the bound that was left to it, in either mode
(41_handshake.md R87). -/
theorem edgesLeft_of_handshake {s t : State} (hw : s.phase.isWait = true) (hc : s.phase ≠ .waitCmd)
    (hf : s.phase.isFrame = false) (hp : t.phase = s.successPhase) (hk : t.k = 0) (hbits : t.bitidx = 0)
    (hr : t.cyclesPerUsPred = s.cyclesPerUsPred) : t.edgesLeft ≤ s.edgesAfterWait := by
  obtain ⟨-, hwait, hframe⟩ := bounds_of_rate hr
  have hframe0 : s.frameEdges 0 = 2 * s.longestWait toBitUs + s.frameEdges (0 + 1) := frameEdges_succ s (by decide)
  have hk0 : t.k.toNat = 0 := by simp [hk]
  have hbits0 : t.bitidx.toNat = 0 := by simp [hbits]
  cases hq : s.phase with
  | hsAwaitSensorHigh | hsAwaitAckLow | hsAwaitStartLow | hsAwaitStartHigh =>
    simp only [State.successPhase, hq] at hp
    simp only [State.edgesLeft, State.edgesAfterWait, hq, hp, hk0, hbits0, hwait, hframe]
    omega
  | hsAwaitAckHigh =>
    simp only [State.successPhase, hq] at hp
    split_ifs at hp
    all_goals
      simp only [State.edgesLeft, State.edgesAfterWait, hq, hp, hk0, hbits0, hwait, hframe]
      omega
  | waitCmd => exact absurd hq hc
  | frWaitLow | frWaitHigh => simp [hq] at hf
  | idle | hsIdleHigh | hsStartLow | hsRelease | validate | unused13 | unused14 | unused15 => simp [hq] at hw

/-- A drive phase's edge lowers the bound by one, whether it counts or leaves (41_handshake.md R81). -/
theorem edgesLeft_control_of_drive {s : State} (h : s.Inv) (hd : s.phase.isDrive = true) :
    (controlStep s).1.edgesLeft < s.edgesLeft := by
  have hlt := h.holdBelowLength hd
  have hlen := (holdCycles_bounds hd).2
  rw [edgesLeft_of_drive hd]
  by_cases heq : s.hc.toNat + 1 = s.holdCycles
  · have hnext : (controlStep s).1.edgesLeft = s.edgesAfterDrive := by
      rw [control_of_holdEnd hd heq]
      refine edgesLeft_of_driveNext hd ?_ ?_ (fun hp => ?_) ?_
      · split_ifs <;> rfl
      · split_ifs <;> rfl
      · rw [if_pos hp]
        rfl
      · split_ifs <;> rfl
    omega
  · have hhc : (s.hc + 1).toNat = s.hc.toNat + 1 := by bv_omega
    rw [control_of_drive hd, if_neg heq, edgesLeft_of_drive (s := { s with hc := s.hc + 1 }) hd]
    show s.holdCycles - (s.hc + 1).toNat + s.edgesAfterDrive < _
    omega

/-- A wait that runs on lowers the bound by the edge it took (40_transition_waiter.md R71). -/
theorem edgesLeft_of_running {s : State} {w : Wait} {k : Word} {win : BitVec 3} (hw : s.wait = some w)
    (ho : s.waitOutcome w = .running k win) : State.edgesLeft { s with k := k, win := win } < s.edgesLeft := by
  obtain ⟨hlt, -, rfl, -⟩ := twOutcome_running_iff.mp ho
  have hk := toNat_count (cyclesPerUs_bounds s).2 hlt
  by_cases hp : s.phase = .waitCmd
  · obtain rfl : _ = w := Option.some.inj ((wait_of_waitCmd hp).symm.trans hw)
    change s.k.toNat + 1 < usToCycles s.cyclesPerUs s.waitCfg at hlt
    rw [edgesLeft_of_waitCmd hp, edgesLeft_of_waitCmd (s := { s with k := _, win := win }) hp]
    show _ - (BitVec.ofNat 32 (s.k.toNat + 1)).toNat < _
    rw [hk]
    show max (usToCycles s.cyclesPerUs s.waitCfg) 1 - _ < _
    omega
  · rw [edgesLeft_of_wait hw hp, edgesLeft_of_wait (s := { s with k := _, win := win }) hw hp]
    show s.longestWait w.timeoutUs - (BitVec.ofNat 32 (s.k.toNat + 1)).toNat + s.edgesAfterWait < _
    rw [hk, State.longestWait]
    omega

/-- A success that does not end the command leads to a phase with the bound left after the wait. -/
theorem edgesLeft_of_success {s : State} {w : Wait} {e : Word} (h : s.Inv) (hw : s.wait = some w)
    (ho : s.waitOutcome w = .success e) (hp : s.phase ≠ .waitCmd) :
    (successStep s e { s with elapsed := e }).1.edgesLeft < s.edgesLeft := by
  obtain ⟨hcount, -, hlt⟩ := waitOutcome_success_count ho
  have hwait := isWait_of_wait hw
  suffices hle : (successStep s e { s with elapsed := e }).1.edgesLeft ≤ s.edgesAfterWait by
    rw [edgesLeft_of_wait hw hp, State.longestWait]
    omega
  obtain ⟨hcmd, -⟩ | ⟨-, hf, -, hs⟩ | ⟨hq, hs⟩ | ⟨hq, hmore, hs⟩ | ⟨hq, hlast, hs⟩ :=
    successStep_cases (e := e) hwait rfl
  · exact absurd hcmd hp
  · have hbits : s.bitidx = 0 := h.handshakeHasNoBits (reading_of_wait hwait hp) hf
    rw [hs]
    exact edgesLeft_of_handshake (t := startWait _ _) hwait hp hf rfl rfl hbits rfl
  · rw [hs, edgesLeft_of_wait (wait_of_frWaitHigh rfl) (by simp)]
    simp only [State.edgesAfterWait, hq]
    exact le_rfl
  · have hsucc := frameEdges_succ s hmore
    have hidx := bitidx_succ_toNat (h.frameNotFull (by simp [hq]))
    rw [hs, edgesLeft_of_wait (wait_of_frWaitLow rfl) (by simp)]
    simp only [State.edgesAfterWait, hq]
    show s.longestWait toBitUs - 0 + (s.longestWait toBitUs + s.frameEdges ((s.bitidx + 1).toNat + 1)) ≤ _
    rw [hidx]
    omega
  · have hfull := h.frameNotFull (by simp [hq])
    have hidx : s.bitidx.toNat + 1 = 40 := by omega
    rw [hs, edgesLeft_of_validate rfl]
    simp only [State.edgesAfterWait, hq, hidx, frameEdges_last]
    exact le_rfl

/-- The control part ends the running command or lowers the bound on its rest (44_control.md R127). -/
theorem edgesLeft_control {s : State} (h : s.Inv) (hb : s.phase ≠ .idle) :
    (controlStep s).1.phase = .idle ∨ (controlStep s).1.edgesLeft < s.edgesLeft := by
  obtain hi | hd | ⟨w, hw⟩ | hv := phase_kinds h.legal.1
  · exact absurd hi hb
  · exact .inr (edgesLeft_control_of_drive h hd)
  · cases ho : s.waitOutcome w with
    | running k win => rw [control_of_running hw ho]; exact .inr (edgesLeft_of_running hw ho)
    | timeout => rw [control_of_timeout hw ho]; exact .inl rfl
    | success e =>
      rw [control_of_success hw ho]
      by_cases hp : s.phase = .waitCmd
      · refine .inl ?_
        rw [(successStep_spec (isWait_of_wait hw) e).1, State.successPhase, hp]
      · exact .inr (edgesLeft_of_success h hw ho hp)
  · rw [control_of_validate hv]
    exact .inl (recordVerdict_phase _ _).1

/-! ### The run to the end of a command -/

/-- `n` edges lead from `s` to `t`; the block is busy before each of them and idle after the last, with DONE set unless
a reset came. -/
structure State.EndsAfter (s : State) (n : Nat) (t : State) : Prop where
  run : runSteps n s = .next t
  busy : ∀ j, j < n → ∃ u, runSteps j s = .next u ∧ u.busy = true
  idle : t.phase = .idle
  done : s.NoReset n → t.done = true

theorem endsAfter_one {s t : State} (hstep : step s = .next t) (hb : s.busy = true) (hidle : t.phase = .idle)
    (hdone : s.pins.rst = false → t.done = true) : s.EndsAfter 1 t where
  run := runSteps_succ hstep
  busy := fun j hj => ⟨s, by rw [Nat.lt_one_iff.mp hj]; rfl, hb⟩
  idle := hidle
  done := fun hr => hdone (rst_of_noReset hr)

theorem endsAfter_succ {s u t : State} {n : Nat} (hstep : step s = .next u) (hb : s.busy = true)
    (h : u.EndsAfter n t) : s.EndsAfter (n + 1) t where
  run := (runSteps_succ hstep).trans h.run
  busy := fun j hj => by
    cases j with
    | zero => exact ⟨s, rfl, hb⟩
    | succ j => rw [runSteps_succ hstep]; exact h.busy j (by omega)
  idle := h.idle
  done := fun hr => h.done (noReset_step hstep hr)

/-- The invariant holds along every run. -/
theorem inv_run {s t : State} {n : Nat} (h : s.Inv) (hrun : runSteps n s = .next t) : t.Inv := by
  induction n generalizing s with
  | zero =>
    obtain rfl : s = t := by simpa using hrun
    exact h
  | succ n ih =>
    obtain ⟨u, hu, hrun⟩ := runSteps_succ_eq_next hrun
    obtain ⟨v, hv, hinv⟩ := stepKeepsTheInvariant s h
    obtain rfl := Host.Outcome.next.inj (hu.symm.trans hv)
    exact ih hinv hrun

/-- An edge of a busy block, reset or not, ends the command or lowers the bound on its rest. -/
theorem busy_edge {s : State} (h : s.Inv) (hb : s.phase ≠ .idle) :
    ∃ t, step s = .next t ∧
      ((t.phase = .idle ∧ (s.pins.rst = false → t.done = true)) ∨ (t.phase ≠ .idle ∧ t.edgesLeft < s.edgesLeft)) := by
  cases hr : s.pins.rst with
  | true => exact ⟨_, step_of_rst hr, .inl ⟨rfl, fun hf => nomatch hf⟩⟩
  | false =>
    refine ⟨_, step_of_legal h.legal hr, ?_⟩
    rw [edgeCore_of_undone hb (h.busyHasNoResult hb).1]
    by_cases hend : (controlStep s).1.phase = .idle
    · exact .inl ⟨hend, fun _ => control_done_of_complete ((control_done_iff s).mpr ⟨hb, hend⟩)⟩
    · exact .inr ⟨hend, (edgesLeft_control h hb).resolve_left hend⟩

/-- Every running command ends within its bound (44_control.md R127). -/
theorem exists_endsAfter {s : State} (h : s.Inv) (hb : s.phase ≠ .idle) :
    ∃ n t, 1 ≤ n ∧ n ≤ s.edgesLeft ∧ s.EndsAfter n t := by
  induction hm : s.edgesLeft using Nat.strong_induction_on generalizing s with
  | _ m ih =>
    subst hm
    have hbusy : s.busy = true := bne_iff_ne.mpr hb
    obtain ⟨u, hu, ⟨hidle, hdone⟩ | ⟨hb', hlt⟩⟩ := busy_edge h hb
    · exact ⟨1, u, le_rfl, edgesLeft_pos h hb, endsAfter_one hu hbusy hidle hdone⟩
    · obtain ⟨n, t, -, hle, hends⟩ := ih _ hlt (inv_run (n := 1) h (runSteps_succ hu)) hb' rfl
      exact ⟨n + 1, t, by omega, by omega, endsAfter_succ hu hbusy hends⟩

/-- With DONE set, RESULT is one of the codes 1 to 5 (30_encoding.md R62). -/
theorem result_code_of_done {s : State} (h : s.Inv) (hdone : s.done = true) :
    1 ≤ s.result.code.toNat ∧ s.result.code.toNat ≤ 5 := by
  have hnone := h.doneHasResult hdone
  have hproduced := h.legal.2
  cases hq : s.result with
  | ok | timeout | checksumMismatch | humidityOutOfRange | temperatureOutOfRange => decide
  | none => exact absurd hq hnone
  | unused6 | unused7 => simp [hq] at hproduced

/-- Settles O46: the run of `exists_endsAfter`; the last state's pins are those of IDLE and its RESULT is the
invariant's. -/
theorem everyCommandEndsWithinItsBound : Obligations.EveryCommandEndsWithinItsBound := by
  refine ⟨fun s h hb => ?_, fun s hp hk => by simp [edgesLeft_of_waitCmd hp, hk]⟩
  obtain ⟨n, t, hpos, hle, hends⟩ := exists_endsAfter h (bne_iff_ne.mp hb)
  obtain ⟨hoe, hout⟩ := pinsFollowThePhase.1 t (.inl hends.idle)
  exact ⟨n, t, hpos, hle, hends.run, hends.idle, hoe, hout, hends.busy, fun hr =>
    ⟨hends.done hr, result_code_of_done (inv_run h hends.run) (hends.done hr)⟩⟩

/-! ### READ and READ_BARE -/

/-- The block is in a READ or READ_BARE, or validates (44_control.md R116). -/
def State.InAttempt (s : State) : Prop :=
  s.phase.isReading = true ∨ s.phase = .validate

theorem busy_of_inAttempt {s : State} (h : s.InAttempt) : s.phase ≠ .idle := by
  obtain h | h := h
  · exact busy_of_reading h
  · simp [h]

theorem ne_waitCmd_of_inAttempt {s : State} (h : s.InAttempt) : s.phase ≠ .waitCmd := by
  intro hp
  simp [State.InAttempt, hp] at h

/-- No success of an attempt's wait leads to WAIT_CMD or out of the attempt (44_control.md R122). -/
theorem successPhase_inAttempt {s : State} (hw : s.phase.isWait = true) (hp : s.phase ≠ .waitCmd) :
    s.successPhase.isReading = true ∨ s.successPhase = .validate := by
  cases hq : s.phase with
  | hsAwaitSensorHigh | hsAwaitAckLow | hsAwaitStartLow | hsAwaitStartHigh | frWaitLow =>
    simp [State.successPhase, hq]
  | hsAwaitAckHigh => cases hb : s.bare <;> simp [State.successPhase, hq, hb]
  | frWaitHigh =>
    simp only [State.successPhase, hq]
    split_ifs <;> simp
  | waitCmd => exact absurd hq hp
  | idle | hsIdleHigh | hsStartLow | hsRelease | validate | unused13 | unused14 | unused15 => simp [hq] at hw

/-- The control part keeps a busy block in its attempt until it ends (44_control.md R122). -/
theorem inAttempt_control {s : State} (hl : s.Legal) (h : s.InAttempt) :
    (controlStep s).1.phase = .idle ∨ (controlStep s).1.InAttempt := by
  obtain hi | hd | ⟨w, hw⟩ | hv := phase_kinds hl.1
  · exact absurd hi (busy_of_inAttempt h)
  · refine .inr (.inl ?_)
    rw [control_of_drive hd]
    obtain hp | hp | hp := drive_cases hd <;> rw [hp] <;> simp only <;> split_ifs <;> simp
  · rw [State.InAttempt, control_phase_of_wait hw]
    cases s.waitOutcome w with
    | running k win => exact .inr h
    | success e => exact .inr (successPhase_inAttempt (isWait_of_wait hw) (ne_waitCmd_of_inAttempt h))
    | timeout => exact .inl rfl
  · rw [control_of_validate hv]
    exact .inl (recordVerdict_phase _ _).1

theorem inAttempt_step {s t : State} (h : s.InAttempt) (hr : s.pins.rst = false) (hstep : step s = .next t) :
    t.phase = .idle ∨ t.InAttempt := by
  obtain ⟨hr', -⟩ | ⟨-, hl, rfl⟩ := step_eq_next_iff.mp hstep
  · simp [hr] at hr'
  · rw [State.InAttempt, edgeState_eq, edgeCore_busy (busy_of_inAttempt h)]
    exact inAttempt_control hl h

/-- As long as no reset comes and the block stays busy, an attempt is an attempt. -/
theorem inAttempt_run {s t : State} {n : Nat} (h : s.InAttempt) (hr : s.NoReset n) (hrun : runSteps n s = .next t)
    (hbusy : ∀ j, j < n + 1 → ∃ u, runSteps j s = .next u ∧ u.busy = true) : t.InAttempt := by
  induction n generalizing t with
  | zero =>
    obtain rfl : s = t := by simpa using hrun
    exact h
  | succ n ih =>
    obtain ⟨u, hu, -⟩ := hbusy n (by omega)
    obtain ⟨t', ht', hb⟩ := hbusy (n + 1) (by omega)
    obtain rfl := Host.Outcome.next.inj (hrun.symm.trans ht')
    have hin := ih (noReset_mono (by omega) hr) hu fun j hj => hbusy j (by omega)
    exact (inAttempt_step hin (rst_of_noReset (noReset_run hu hr)) ((runSteps_snoc hu).symm.trans hrun)).resolve_left
      (bne_iff_ne.mp hb)

/-- At the start of an attempt the bound is the longest-READ figure (44_control.md R124). -/
theorem edgesLeft_of_start {s : State} (hp : s.phase = .hsIdleHigh) (hc : s.hc = 0) :
    s.edgesLeft = longestRead s.cyclesPerUs := by
  rw [edgesLeft_of_drive (by simp [hp]), holdCycles_of_idleHigh hp, hc]
  simp only [State.edgesAfterDrive, hp]
  show 100 * s.cyclesPerUs - 0 + (1000 * s.cyclesPerUs + 1 + 3 * (100 * s.cyclesPerUs - 1) +
    2 * (200 * s.cyclesPerUs - 1) + (2 * 40 * (500 * s.cyclesPerUs - 1) + 1)) = _
  rw [longestRead]
  omega

theorem recordVerdict_ne_timeout (v : Verdict) (s : State) : (recordVerdict v s).result ≠ .timeout := by
  cases v <;> simp [recordVerdict]

/-- The edge that ends an attempt leaves DATA 0 unless RESULT is OK, and FRAME 0 if it is TIMEOUT (42_frame_reader.md
R102). -/
theorem attempt_ends_without_partial_result {s t : State} (h : s.Inv) (hin : s.InAttempt) (hr : s.pins.rst = false)
    (hstep : step s = .next t) (hidle : t.phase = .idle) :
    (t.result ≠ .ok → t.data = Reading.zero) ∧ (t.result = .timeout → t.frameHi = 0 ∧ t.frameLo = 0) := by
  obtain ⟨hreading, hvalidate⟩ := failedAttemptLeavesNoPartialResult s t h hr hstep
  obtain hp | hp := hin
  · obtain ⟨-, -, hhi, hlo, hdata⟩ := hreading hp hidle
    exact ⟨fun _ => hdata, fun _ => ⟨hhi, hlo⟩⟩
  · refine ⟨fun hno => (hvalidate hp hno).1, fun htimeout => ?_⟩
    obtain rfl := Host.Outcome.next.inj (hstep.symm.trans (step_of_legal h.legal hr))
    rw [edgeCore_of_validate hp] at htimeout
    exact absurd htimeout (recordVerdict_ne_timeout _ _)

/-- Settles O47: the accept keeps the invariant and starts with the longest-READ figure, so the command ends as in O46;
it is still an attempt at its last edge. -/
theorem acceptedReadEndsWithinTheLongestRead : Obligations.AcceptedReadEndsWithinTheLongestRead := by
  intro s u i h hp hi hexec hr
  obtain ⟨bare, hacc⟩ := acceptOf_attempt hi
  obtain rfl := exec_of_idle_eq_next hp hexec
  have hinv : (latch (acceptOf i s)).Inv := inv_latch (inv_acceptOf i h)
  have hphase : (latch (acceptOf i s)).phase = .hsIdleHigh := by rw [hacc]; rfl
  have hhc : (latch (acceptOf i s)).hc = 0 := by rw [hacc]; rfl
  have hrate : (latch (acceptOf i s)).cyclesPerUs = s.cyclesPerUs := by rw [hacc]; rfl
  generalize latch (acceptOf i s) = u at *
  obtain ⟨n, t, hpos, hle, hends⟩ := exists_endsAfter hinv (by simp [hphase])
  rw [edgesLeft_of_start hphase hhc, hrate] at hle
  have hrn : u.NoReset n := noReset_mono hle hr
  have hdone := hends.done hrn
  obtain ⟨hcode, hcode'⟩ := result_code_of_done (inv_run hinv hends.run) hdone
  obtain ⟨m, rfl⟩ := Nat.exists_eq_add_one.mpr hpos
  obtain ⟨v, hv, -⟩ := hends.busy m (by omega)
  have hin : v.InAttempt := inAttempt_run (.inl (by simp [hphase])) (noReset_mono (by omega) hrn) hv hends.busy
  obtain ⟨hdata, hframe⟩ := attempt_ends_without_partial_result (inv_run hinv hv) hin
    (rst_of_noReset (noReset_run hv hrn)) ((runSteps_snoc hv).symm.trans hends.run) hends.idle
  exact ⟨m + 1, t, hle, hends.run, hends.idle, hdone, hcode, hcode', hends.busy, hdata, hframe⟩

end Sys2Proof.Machine
end

section
/-! Noninterference: two attempts with the same command, clock rate and samples take the same course, edge by edge
(44_control.md R128). -/

namespace Sys2Proof.Machine

/-! ### The operations -/

/-- The registers an attempt reads and reports besides the phase and its counters. -/
structure State.SameRegs (s t : State) : Prop where
  done : t.done = s.done
  result : t.result = s.result
  errInfo : t.errInfo = s.errInfo
  frameHi : t.frameHi = s.frameHi
  frameLo : t.frameLo = s.frameLo
  data : t.data = s.data
  bare : t.bare = s.bare
  bitidx : t.bitidx = s.bitidx
  sr : t.sr = s.sr
  bitval : t.bitval = s.bitval

section

variable {s t : State}

theorem sameRegs_of_sameAttempt (h : s.SameAttempt t) : s.SameRegs t :=
  { h, h.outcome with }

/-- In a phase without counters the registers are all there is to agree on. -/
theorem sameAttempt_of_sameRegs (h : s.SameRegs t) (hp : t.phase = s.phase) (hd : s.phase.isDrive = false)
    (hw : s.phase.isWait = false) : s.SameAttempt t :=
  { h with
    outcome := { h with phase := hp }
    hc := fun hd' => by simp [hd] at hd'
    k := fun hw' => by simp [hw] at hw'
    win := fun hw' => by simp [hw] at hw' }

theorem sameAttempt_enterDrive {p : Phase} (h : s.SameRegs t) (hp : p.isDrive = true) :
    (enterDrive p s).SameAttempt (enterDrive p t) :=
  { h with
    outcome := { h with phase := rfl }
    hc := fun _ => rfl
    k := fun hw => absurd hw (by simp [not_wait_of_drive hp])
    win := fun hw => absurd hw (by simp [not_wait_of_drive hp]) }

theorem sameAttempt_startWait {p : Phase} (h : s.SameRegs t) (hp : p.isWait = true) :
    (startWait p s).SameAttempt (startWait p t) :=
  { h with
    outcome := { h with phase := rfl }
    hc := fun hd => absurd hp (by simp [not_wait_of_drive (p := p) hd])
    k := fun _ => rfl
    win := fun _ => rfl }

theorem sameAttempt_frameComplete (h : s.SameRegs t) :
    (frameComplete s.sr s).SameAttempt (frameComplete t.sr t) :=
  sameAttempt_of_sameRegs
    { h with frameHi := congrArg (·.extractLsb' 8 32) h.sr, frameLo := congrArg (·.extractLsb' 0 8) h.sr } rfl rfl rfl

theorem sameAttempt_raiseTimeout (h : s.SameRegs t) (l : Level) (p : Phase) (bi : BitVec 6) (us : BitVec 16) :
    (raiseTimeout l p bi us s).SameAttempt (raiseTimeout l p bi us t) :=
  sameAttempt_of_sameRegs { h with done := rfl, result := rfl, errInfo := rfl } rfl rfl rfl

theorem sameRegs_recordVerdict (h : s.SameRegs t) (v : Verdict) :
    (recordVerdict v s).SameRegs (recordVerdict v t) := by
  cases v with
  | ok hum temp => exact { h with done := rfl, result := rfl, data := rfl }
  | checksumMismatch | humidityOutOfRange | temperatureOutOfRange => exact { h with done := rfl, result := rfl }

/-- What VALIDATE reports rests on what it reads alone (43_validator.md R113). -/
theorem sameOutcome_recordVerdict (h : s.SameOutcome t) (v : Verdict) :
    (recordVerdict v s).SameOutcome (recordVerdict v t) := by
  cases v with
  | ok hum temp => exact { h with done := rfl, result := rfl, data := rfl, phase := rfl }
  | checksumMismatch | humidityOutOfRange | temperatureOutOfRange =>
    exact { h with done := rfl, result := rfl, phase := rfl }

theorem verdict_congr (hhi : t.frameHi = s.frameHi) (hlo : t.frameLo = s.frameLo) : t.verdict = s.verdict := by
  simp only [State.verdict, State.b1, State.b2, State.b3, State.b4, State.b5, hhi, hlo]

/-! ### The control part -/

theorem holdCycles_congr (hp : t.phase = s.phase) (hrate : t.cyclesPerUs = s.cyclesPerUs) :
    t.holdCycles = s.holdCycles := by
  rw [State.holdCycles, State.holdCycles, hp, hrate]

/-- A wait of an attempt has its parameters from its phase alone (40_transition_waiter.md R66). -/
theorem wait_congr (hp : t.phase = s.phase) (hc : s.phase ≠ .waitCmd) : t.wait = s.wait := by
  rw [State.wait, State.wait, hp]
  cases hq : s.phase with
  | waitCmd => exact absurd hq hc
  | _ => rfl

theorem sameAttempt_control_of_drive (h : s.SameAttempt t) (hd : s.phase.isDrive = true)
    (hrate : t.cyclesPerUs = s.cyclesPerUs) : (controlStep s).1.SameAttempt (controlStep t).1 := by
  have hp := h.outcome.phase
  have hhc := h.hc hd
  have hlen := holdCycles_congr hp hrate
  have hdt : t.phase.isDrive = true := by rw [hp, hd]
  have hregs : State.SameRegs { s with hc := 0 } { t with hc := 0 } := { sameRegs_of_sameAttempt h with }
  by_cases heq : s.hc.toNat + 1 = s.holdCycles
  · have hnext : t.driveNext = s.driveNext := by rw [State.driveNext, State.driveNext, hp]
    rw [control_of_holdEnd hd heq, control_of_holdEnd hdt (by rw [hhc, hlen, heq]), hnext]
    by_cases hrel : s.phase = .hsRelease
    · rw [if_pos hrel, if_pos (hp.trans hrel)]
      exact sameAttempt_startWait hregs (by simp [State.driveNext, hrel])
    · rw [if_neg hrel, if_neg (by rwa [hp])]
      refine sameAttempt_enterDrive hregs ?_
      obtain hq | hq | hq := drive_cases hd
      · simp [State.driveNext, hq]
      · simp [State.driveNext, hq]
      · exact absurd hq hrel
  · rw [control_of_drive hd, control_of_drive hdt, if_neg heq, if_neg (by rwa [hhc, hlen])]
    exact { h with outcome := { h.outcome with }, hc := fun _ => congrArg (· + 1) hhc }

/-- The phase's own rule for success reads and writes nothing else, WAIT_CMD apart. -/
theorem sameAttempt_successStep {u : State} (h : s.SameRegs t) (hrate : t.cyclesPerUs = s.cyclesPerUs)
    (hw : u.phase.isWait = true) (hc : u.phase ≠ .waitCmd) (e : Word) :
    (successStep u e s).1.SameAttempt (successStep u e t).1 := by
  cases hq : u.phase with
  | hsAwaitSensorHigh | hsAwaitAckLow | hsAwaitStartLow | hsAwaitStartHigh =>
    simp only [successStep, hq, thenWait]
    exact sameAttempt_startWait h rfl
  | hsAwaitAckHigh =>
    simp only [successStep, hq, ackHighDone, h.bare]
    split_ifs <;> exact sameAttempt_startWait h rfl
  | frWaitLow =>
    simp only [successStep, hq, bitLowDone, hrate]
    exact sameAttempt_startWait { h with bitval := rfl } rfl
  | frWaitHigh =>
    have hshift : shiftIn t.sr t.bitval = shiftIn s.sr s.bitval := by rw [h.sr, h.bitval]
    have hregs : State.SameRegs { s with sr := shiftIn s.sr s.bitval, bitidx := s.bitidx + 1 }
        { t with sr := shiftIn t.sr t.bitval, bitidx := t.bitidx + 1 } :=
      { h with sr := hshift, bitidx := congrArg (· + 1) h.bitidx }
    simp only [successStep, hq, bitHighDone]
    by_cases hmore : s.bitidx.toNat + 1 < 40
    · rw [if_pos hmore, if_pos (by rwa [h.bitidx])]
      exact sameAttempt_startWait hregs rfl
    · rw [if_neg hmore, if_neg (by rwa [h.bitidx])]
      exact sameAttempt_frameComplete hregs
  | waitCmd => exact absurd hq hc
  | idle | hsIdleHigh | hsStartLow | hsRelease | validate | unused13 | unused14 | unused15 => simp [hq] at hw

theorem sameAttempt_control (h : s.SameAttempt t) (hl : s.Legal) (hin : s.InAttempt)
    (hrate : t.cyclesPerUs = s.cyclesPerUs) (hsample : s.phase.isWait = true → t.sample = s.sample) :
    (controlStep s).1.SameAttempt (controlStep t).1 := by
  have hp := h.outcome.phase
  have hregs := sameRegs_of_sameAttempt h
  obtain hi | hd | ⟨w, hw⟩ | hv := phase_kinds hl.1
  · exact absurd hi (busy_of_inAttempt hin)
  · exact sameAttempt_control_of_drive h hd hrate
  · have hwait := isWait_of_wait hw
    have hc := ne_waitCmd_of_inAttempt hin
    have hwt : t.wait = some w := (wait_congr hp hc).trans hw
    have hout : t.waitOutcome w = s.waitOutcome w := by
      simp only [State.waitOutcome, hrate, h.k hwait, h.win hwait, hsample hwait]
    cases ho : s.waitOutcome w with
    | running k win =>
      rw [control_of_running hw ho, control_of_running hwt (hout.trans ho)]
      exact { h with outcome := { h.outcome with }, k := fun _ => rfl, win := fun _ => rfl }
    | success e =>
      rw [control_of_success hw ho, control_of_success hwt (hout.trans ho)]
      have hsucc : successStep t = successStep s := by simp only [successStep, hp]
      rw [hsucc]
      exact sameAttempt_successStep (s := { s with elapsed := e }) (t := { t with elapsed := e }) { hregs with } hrate
        hwait hc e
    | timeout =>
      rw [control_of_timeout hw ho, control_of_timeout hwt (hout.trans ho), hp, h.bitidx]
      exact sameAttempt_raiseTimeout hregs _ _ _ _
  · have hvt : t.phase = .validate := hp.trans hv
    have hidle := (recordVerdict_phase s.verdict s).1
    have hidle' := (recordVerdict_phase s.verdict t).1
    rw [control_of_validate hv, control_of_validate hvt, verdict_congr hregs.frameHi hregs.frameLo]
    exact sameAttempt_of_sameRegs (sameRegs_recordVerdict hregs _) (hidle'.trans hidle.symm) (by simp [hidle])
      (by simp [hidle])

end

/-! ### The edge -/

/-- `t` follows `s` in an attempt: both are at the same point of it, or both have ended it alike. -/
structure State.Follows (t s : State) : Prop where
  same : s.SameAttempt t
  running : s.phase = .idle ∨ (s.InAttempt ∧ s.done = false)

theorem legal_of_sameOutcome {s t : State} (h : s.SameOutcome t) (hl : s.Legal) : t.Legal := by
  rw [State.Legal, h.phase, h.result]
  exact hl

/-- Two reset edges lead to the same block (70_reset_and_hazards.md R149). -/
theorem follows_resetEdge (s t : State) : (resetEdge t).Follows (resetEdge s) :=
  ⟨sameAttempt_of_sameRegs ⟨rfl, rfl, rfl, rfl, rfl, rfl, rfl, rfl, rfl, rfl⟩ rfl rfl rfl, .inl rfl⟩

/-- An edge of a running attempt that finds the same sample where it takes one is followed, whatever the host does. -/
theorem follows_step {s t u : State} (h : t.Follows s) (hb : s.phase ≠ .idle) (hrate : t.cyclesPerUs = s.cyclesPerUs)
    (hrst : t.pins.rst = s.pins.rst) (hsample : s.phase.isWait = true → t.sample = s.sample)
    (hstep : step s = .next u) : ∃ v, step t = .next v ∧ v.Follows u := by
  obtain ⟨hin, hdone⟩ := h.running.resolve_left hb
  have hout := h.same.outcome
  obtain ⟨hr, rfl⟩ | ⟨hr, hl, rfl⟩ := step_eq_next_iff.mp hstep
  · exact ⟨_, step_of_rst (hrst.trans hr), follows_resetEdge s t⟩
  · have hc := sameAttempt_control h.same hl hin hrate hsample
    refine ⟨_, step_of_legal (legal_of_sameOutcome hout hl) (hrst.trans hr), ?_⟩
    rw [edgeState_eq, edgeCore_of_undone hb hdone, edgeCore_of_undone (by rwa [hout.phase]) (hout.done.trans hdone)]
    refine ⟨{ hc with outcome := { hc.outcome with } }, ?_⟩
    obtain hend | hin' := inAttempt_control hl hin
    · exact .inl hend
    · have hset := control_setDone_eq_false fun hend => busy_of_inAttempt hin' hend.2
      exact .inr ⟨hin', (control_keeps_result hset).1.trans hdone⟩

/-- The edge that leaves VALIDATE reports the same for the same frame, whatever else the blocks hold (43_validator.md
R113). -/
theorem sameOutcome_step_of_validate {s t u : State} (h : s.SameOutcome t) (hp : s.phase = .validate)
    (hrst : t.pins.rst = s.pins.rst) (hstep : step s = .next u) :
    u.phase = .idle ∧ ∃ v, step t = .next v ∧ u.SameOutcome v := by
  obtain ⟨hr, rfl⟩ | ⟨hr, hl, rfl⟩ := step_eq_next_iff.mp hstep
  · exact ⟨rfl, _, step_of_rst (hrst.trans hr), (follows_resetEdge s t).same.outcome⟩
  · rw [edgeState_eq, edgeCore_of_validate hp]
    refine ⟨(recordVerdict_phase s.verdict s).1, _, step_of_legal (legal_of_sameOutcome h hl) (hrst.trans hr), ?_⟩
    rw [edgeCore_of_validate (h.phase.trans hp), verdict_congr h.frameHi h.frameLo]
    exact { sameOutcome_recordVerdict h s.verdict with }

/-! ### The run -/

/-- A run of `n + 1` edges ends with an edge after a run of `n`. -/
theorem runSteps_snoc_eq_next {s t : State} {n : Nat} (h : runSteps (n + 1) s = .next t) :
    ∃ u, runSteps n s = .next u ∧ step u = .next t := by
  induction n generalizing s with
  | zero =>
    obtain ⟨u, hu, hrun⟩ := runSteps_succ_eq_next h
    obtain rfl : u = t := by simpa using hrun
    exact ⟨s, rfl, hu⟩
  | succ n ih =>
    obtain ⟨v, hv, hrun⟩ := runSteps_succ_eq_next h
    obtain ⟨u, hu, hstep⟩ := ih hrun
    exact ⟨u, (runSteps_succ hv).trans hu, hstep⟩

/-- A run of a busy attempt with the same samples is followed to its end. -/
theorem follows_run {s t u : State} {n : Nat} (h : t.Follows s) (hs : s.SameSamples t n)
    (hrun : runSteps n s = .next u) (hbusy : ∀ j w, j < n → runSteps j s = .next w → w.busy = true) :
    ∃ v, runSteps n t = .next v ∧ v.Follows u := by
  induction n generalizing u with
  | zero =>
    obtain rfl : s = u := by simpa using hrun
    exact ⟨t, rfl, h⟩
  | succ n ih =>
    obtain ⟨s', hs', hstep⟩ := runSteps_snoc_eq_next hrun
    obtain ⟨t', ht', hfollows⟩ := ih
      ⟨hs.rate, fun j hj => hs.rst j (by omega), fun j u v hj => hs.sample j u v (by omega)⟩ hs'
      fun j w hj => hbusy j w (by omega)
    have hrate : t'.cyclesPerUs = s'.cyclesPerUs := by
      rw [cyclesPerUs_run ht', cyclesPerUs_run hs', State.cyclesPerUs, State.cyclesPerUs, hs.rate]
    have hrst : t'.pins.rst = s'.pins.rst := by
      have := hs.rst n (by omega)
      rwa [← Nat.add_zero n, ← portsAt_run ht', ← portsAt_run hs'] at this
    obtain ⟨v, hv, hfollows'⟩ := follows_step hfollows (bne_iff_ne.mp (hbusy n s' (by omega) hs')) hrate hrst
      (hs.sample n s' t' (by omega) hs' ht') hstep
    exact ⟨v, (runSteps_snoc ht').trans hv, hfollows'⟩

/-- A run of VALIDATE is busy before one edge alone, and reports the same for the same frame. -/
theorem sameOutcome_run_of_validate {s t u : State} {n : Nat} (h : s.SameOutcome t) (hp : s.phase = .validate)
    (hs : s.SameSamples t n) (hrun : runSteps n s = .next u)
    (hbusy : ∀ j w, j < n → runSteps j s = .next w → w.busy = true) :
    ∃ v, runSteps n t = .next v ∧ u.SameOutcome v := by
  match n with
  | 0 =>
    obtain rfl : s = u := by simpa using hrun
    exact ⟨t, rfl, h⟩
  | m + 1 =>
    obtain ⟨s', hstep, hrest⟩ := runSteps_succ_eq_next hrun
    obtain ⟨hidle, t', ht', hout⟩ := sameOutcome_step_of_validate h hp (hs.rst 0 (by omega)) hstep
    match m with
    | 0 =>
      obtain rfl : s' = u := by simpa using hrest
      exact ⟨t', runSteps_succ ht', hout⟩
    | m + 1 =>
      have := hbusy 1 s' (by omega) (runSteps_succ hstep)
      simp [State.busy, hidle] at this

/-- Settles O49: after the accept the second block follows the first one, and an edge keeps it so (`follows_step`);
VALIDATE reads the frame registers alone. -/
theorem attemptDependsOnlyOnCommandRateAndSamples : Obligations.AttemptDependsOnlyOnCommandRateAndSamples := by
  intro s s' u u' i hl hp hl' hp' hexec hexec' n v hs hrun hbusy
  obtain rfl := exec_of_idle_eq_next hp hexec
  obtain rfl := exec_of_idle_eq_next hp' hexec'
  refine ⟨fun hi => ?_, fun hi hhi hlo => ?_⟩
  · obtain ⟨bare, hacc⟩ := acceptOf_attempt hi
    have hregs : State.SameRegs (latch (acceptAttempt bare s)) (latch (acceptAttempt bare s')) :=
      ⟨rfl, rfl, rfl, rfl, rfl, rfl, rfl, rfl, rfl, rfl⟩
    have hstart : (latch (acceptOf i s')).Follows (latch (acceptOf i s)) := by
      rw [hacc]
      exact ⟨sameAttempt_enterDrive hregs rfl, .inr ⟨.inl rfl, rfl⟩⟩
    obtain ⟨v', hrun', hfollows⟩ := follows_run hstart hs hrun hbusy
    exact ⟨v', hrun', hfollows.same⟩
  · subst hi
    have hout : (latch (acceptValidate s)).SameOutcome (latch (acceptValidate s')) :=
      ⟨rfl, rfl, rfl, rfl, hhi, hlo, rfl⟩
    exact sameOutcome_run_of_validate hout rfl hs hrun hbusy

end Sys2Proof.Machine
end

section
/-! Exceptions: the interrupt as a level, the record of a completed command and what clears it, and the edge that raises
a timeout (60_exceptions.md). -/

namespace Sys2Proof.Machine

/-! ### The edge of a timeout -/

/-- The wait phases of FR are the sites that report a bit index (60_exceptions.md R133). -/
theorem timeoutInfo_bitidx (l : Level) (site : Phase) (bi : BitVec 6) (us : BitVec 16) :
    (timeoutInfo l site bi us).bitidx = if site = .frWaitLow ∨ site = .frWaitHigh then bi else 0 := by
  cases site <;> rfl

/-- Settles O30: the outcome is TIMEOUT, whose edge is `edgeCore_of_timeout`; FRAME and DATA keep the zeros that the
invariant gives a running attempt. -/
theorem timeoutIsRecordedAndEndsTheCommand : Obligations.TimeoutIsRecordedAndEndsTheCommand := by
  intro s w hinv hw hr hend
  have ho : s.waitOutcome w = .timeout := twOutcome_timeout_iff.mpr hend
  have hzero (hp : s.phase ≠ .waitCmd) : s.frameHi = 0 ∧ s.frameLo = 0 ∧ s.data = Reading.zero :=
    hinv.readingHasNoFrame (reading_of_wait (isWait_of_wait hw) hp)
  have hbits := timeoutInfo_bitidx w.level s.phase s.bitidx w.timeoutUs
  refine ⟨latch (edgeCore s), step_of_legal hinv.legal hr, inputsAdvance_edge s, ?_⟩
  rw [edgeCore_of_timeout hw ho]
  exact ⟨rfl, rfl, rfl, rfl, rfl, rfl, hbits, rfl, rfl, rfl, rfl, hzero, rfl, rfl, rfl, rfl, rfl, rfl, rfl, rfl, rfl,
    rfl, rfl, rfl⟩

/-! ### The record of a completed command -/

/-- The record of a command is read-only to the host, but for DONE (20_memory.md R46). -/
theorem hostWrite_record (s c : State) (b : Bool) :
    (hostWrite s b c).result = c.result ∧ (hostWrite s b c).errInfo = c.errInfo ∧
      (hostWrite s b c).bitidx = c.bitidx := by
  unfold hostWrite
  repeat' split
  all_goals exact ⟨rfl, rfl, rfl⟩

/-- Part (2) of an edge leaves a write of CMD to the accepts (44_control.md R117). -/
theorem hostWrite_of_cmd {s : State} (c : State) (b : Bool) (h : wordIndex s.pins.busAddr = 1) :
    hostWrite s b c = c := by
  simp [hostWrite, h]

/-- DONE after an edge of an idle block that accepts nothing (44_control.md R121). -/
theorem hostWrite_done_of_idle {s : State} (hp : s.phase = .idle) : (hostWrite s false s).done = s.doneAfter := by
  cases hwe : s.pins.busWe with
  | false => simp [hostWrite, State.doneAfter, hwe]
  | true =>
    by_cases hcmd : wordIndex s.pins.busAddr = 1
    · simp [hostWrite_of_cmd, State.doneAfter, hcmd]
    · simp [hostWrite_of_idle hp hwe hcmd, State.doneAfter, hwe]

/-- A command written to an idle block and not accepted is NOP or reserved (44_control.md R118, R126). -/
theorem noEffect_of_not_accepts {s : State} {v : Word} (hr : s.pins.rst = false) (hp : s.phase = .idle)
    (hc : s.commandWord = some v) (hno : s.accepts = none) :
    decodeWord v = .nop ∨ decodeWord v = .reserved6 ∨ decodeWord v = .reserved7 := by
  have hnot (i : Instr) (hi : decodeWord v = i) : ¬ (1 ≤ i.opcode.toNat ∧ i.opcode.toNat ≤ 5) := by
    intro hop
    simp [accepts_of_command hr hp hc hi hop] at hno
  cases hi : decodeWord v with
  | nop => exact .inl rfl
  | reserved6 => exact .inr (.inl rfl)
  | reserved7 => exact .inr (.inr rfl)
  | read | readBare | validate | waitLow | waitHigh => exact absurd (by decide) (hnot _ hi)

/-- An edge of an idle block that accepts no command is the host's write alone (44_control.md R129). -/
theorem edgeCore_of_not_accepts {s : State} (hr : s.pins.rst = false) (hp : s.phase = .idle)
    (hno : s.accepts = none) : edgeCore s = hostWrite s false s := by
  obtain hc | ⟨-, hidx, hc⟩ := commandWord_none_or s
  · exact edgeCore_idle_noCommand hp hc
  · have hacc := acceptOf_of_noEffect (noEffect_of_not_accepts hr hp hc hno) s
    simp [edgeCore, hc, hp, hacc, hostWrite_of_cmd s false hidx]

/-- Settles O25: without an accept the edge is the host's write, which reaches no register of the record but DONE. -/
theorem resultsStandUntilAcceptOrReset : Obligations.ResultsStandUntilAcceptOrReset := by
  intro s hl hp hr hno
  obtain ⟨hresult, herr, hbits⟩ := hostWrite_record s s false
  obtain ⟨hdata, helapsed⟩ := hostWrite_data_elapsed s s false
  refine ⟨latch (edgeCore s), step_of_legal hl hr, ?_⟩
  rw [edgeCore_of_not_accepts hr hp hno]
  exact ⟨(hostWrite_phase s s false).trans hp, hresult, herr, hdata, helapsed, hbits, hostWrite_done_of_idle hp⟩

/-! ### The interrupt -/

/-- A busy block has DONE at 0, so `irq` is low (60_exceptions.md R142). -/
theorem irq_of_busy {s : State} (h : s.Inv) (hb : s.busy = true) : s.irq = false := by
  obtain ⟨hdone, -⟩ := h.busyHasNoResult (by simpa [State.busy] using hb)
  simp [State.irq, hdone]

/-- Settles O17: a completion sets DONE (`doneSetWinsOverClear`), so `irq` shows IE; a busy state, before the edge or
after it, keeps the invariant's DONE of 0. -/
theorem irqNeverRisesWhileBusy : Obligations.IrqNeverRisesWhileBusy := by
  intro s t hinv hr h
  obtain ⟨hset, -, -⟩ := doneSetWinsOverClear s t hr h
  obtain ⟨t', h', hinv'⟩ := stepKeepsTheInvariant s hinv
  obtain rfl := Host.Outcome.next.inj (h'.symm.trans h)
  refine ⟨fun hend => ?_, fun hlow => ?_, irq_of_busy hinv, irq_of_busy hinv'⟩
  · simp [State.irq, hset hend]
  · obtain hdone | hie := hlow
    · simp [State.irq, hdone]
    · simp [State.irq, hie]

end Sys2Proof.Machine
end

section
/-! Hazards: what a host can read while an attempt runs (70_reset_and_hazards.md R155). -/

namespace Sys2Proof.Machine

/-! ### FRAME -/

theorem ne_validate_of_reading {p : Phase} (h : p.isReading = true) : p ≠ .validate := by
  rintro rfl
  simp at h

/-- The success of an attempt's wait leaves FRAME as it is, or completes the frame: FRAME then is the shift register
(42_frame_reader.md R101). -/
theorem successStep_frameRegs {s : State} (hw : s.phase.isWait = true) (hp : s.phase ≠ .waitCmd) (e : Word) :
    let t := (successStep s e { s with elapsed := e }).1
    (t.phase ≠ .validate ∧ t.frameHi = s.frameHi ∧ t.frameLo = s.frameLo) ∨
      (t.phase = .validate ∧ t.frameHi.toNat * 256 + t.frameLo.toNat = t.sr.toNat) := by
  obtain ⟨hcmd, -⟩ | ⟨-, -, hnext, hs⟩ | ⟨-, hs⟩ | ⟨-, -, hs⟩ | ⟨-, -, hs⟩ := successStep_cases (e := e) hw rfl
  · exact absurd hcmd hp
  · have hne : s.successPhase ≠ .validate := by
      intro hv
      simp [hv] at hnext
    rw [hs]
    exact .inl ⟨hne, rfl, rfl⟩
  · rw [hs]
    exact .inl ⟨by simp, rfl, rfl⟩
  · rw [hs]
    exact .inl ⟨by simp, rfl, rfl⟩
  · rw [hs]
    exact .inr ⟨rfl, frame_toNat_of_frameComplete _ _⟩

/-- Before frame completion the control part leaves FRAME as it is; the edge to VALIDATE completes it
(42_frame_reader.md R101). -/
theorem control_frameRegs_of_reading {s : State} (h : s.phase.isReading = true) :
    let t := (controlStep s).1
    (t.phase ≠ .validate ∧ t.frameHi = s.frameHi ∧ t.frameLo = s.frameLo) ∨
      (t.phase = .validate ∧ t.frameHi.toNat * 256 + t.frameLo.toNat = t.sr.toNat) := by
  have hnv := ne_validate_of_reading h
  have hnc : s.phase ≠ .waitCmd := ne_waitCmd_of_inAttempt (.inl h)
  obtain hi | hd | ⟨w, hw⟩ | hv := phase_kinds (taken_of_reading h)
  · exact absurd hi (busy_of_reading h)
  · refine .inl ?_
    rw [control_of_drive hd]
    obtain hp | hp | hp := drive_cases hd
    all_goals rw [hp]; simp only; split_ifs <;> exact ⟨by simp, rfl, rfl⟩
  · cases ho : s.waitOutcome w with
    | running k win => rw [control_of_running hw ho]; exact .inl ⟨hnv, rfl, rfl⟩
    | success e => rw [control_of_success hw ho]; exact successStep_frameRegs (isWait_of_wait hw) hnc e
    | timeout => rw [control_of_timeout hw ho]; exact .inl ⟨by simp, rfl, rfl⟩
  · exact absurd hv hnv

/-! ### The attempt -/

/-- What a host reads of a running READ or READ_BARE: no result, and no FRAME before the VALIDATE cycle
(70_reset_and_hazards.md R155, log entry 19). -/
structure State.ShowsNoResult (s : State) : Prop where
  inAttempt : s.InAttempt
  done : s.done = false
  result : s.result = .none
  errInfo : s.errInfo = ErrInfo.zero
  data : s.data = Reading.zero
  noFrame : s.phase ≠ .validate → s.frameHi = 0 ∧ s.frameLo = 0
  frame : s.phase = .validate → s.frameHi.toNat * 256 + s.frameLo.toNat = s.sr.toNat

theorem showsNoResult_acceptAttempt (bare : Bool) (s : State) : (acceptAttempt bare s).ShowsNoResult where
  inAttempt := .inl rfl
  done := rfl
  result := rfl
  errInfo := rfl
  data := rfl
  noFrame := fun _ => ⟨rfl, rfl⟩
  frame := fun hv => nomatch hv

/-- The control part ends the attempt or shows none of it (70_reset_and_hazards.md R155). -/
theorem showsNoResult_control {s : State} (h : s.ShowsNoResult) (hl : s.Legal)
    (hb : (controlStep s).1.phase ≠ .idle) : (controlStep s).1.ShowsNoResult := by
  have hin := (inAttempt_control hl h.inAttempt).resolve_left hb
  obtain ⟨hdone, hresult, herr, hdata⟩ := control_keeps_result (control_setDone_eq_false fun hend => hb hend.2)
  have hread : s.phase.isReading = true := by
    refine h.inAttempt.resolve_right fun hv => hb ?_
    rw [control_of_validate hv]
    exact (recordVerdict_phase _ _).1
  have hframe := control_frameRegs_of_reading hread
  refine ⟨hin, hdone.trans h.done, hresult.trans h.result, herr.trans h.errInfo, hdata.trans h.data, fun hnv => ?_,
    fun hv => (hframe.resolve_left fun hkeep => hkeep.1 hv).2⟩
  obtain ⟨-, hhi, hlo⟩ := hframe.resolve_right fun hend => hnv hend.1
  obtain ⟨hhi0, hlo0⟩ := h.noFrame (ne_validate_of_reading hread)
  exact ⟨hhi.trans hhi0, hlo.trans hlo0⟩

/-- No edge that leaves the block busy lets a host read more of the attempt, whatever the host writes. -/
theorem showsNoResult_step {s t : State} (h : s.ShowsNoResult) (hstep : step s = .next t) (hb : t.phase ≠ .idle) :
    t.ShowsNoResult := by
  obtain ⟨-, rfl⟩ | ⟨-, hl, rfl⟩ := step_eq_next_iff.mp hstep
  · exact absurd rfl hb
  · rw [edgeState_eq, edgeCore_of_undone (busy_of_inAttempt h.inAttempt) h.done] at hb ⊢
    exact { showsNoResult_control h hl hb with }

theorem showsNoResult_run {s t : State} {n : Nat} (h : s.ShowsNoResult) (hrun : runSteps n s = .next t)
    (hbusy : ∀ j, j ≤ n → ∃ u, runSteps j s = .next u ∧ u.busy = true) : t.ShowsNoResult := by
  induction n generalizing t with
  | zero =>
    obtain rfl : s = t := by simpa using hrun
    exact h
  | succ n ih =>
    obtain ⟨u, hu, hstep⟩ := runSteps_snoc_eq_next hrun
    obtain ⟨t', ht', hb⟩ := hbusy (n + 1) le_rfl
    obtain rfl := Host.Outcome.next.inj (hrun.symm.trans ht')
    exact showsNoResult_step (ih hu fun j hj => hbusy j (by omega)) hstep (bne_iff_ne.mp hb)

/-- Settles O53: the accept leaves no result to show, and no edge of the running attempt adds one
(`showsNoResult_run`). -/
theorem runningAttemptShowsNoResult : Obligations.RunningAttemptShowsNoResult := by
  intro s u i _ hp hi hexec n v hrun hbusy
  obtain ⟨bare, hacc⟩ := acceptOf_attempt hi
  obtain rfl := exec_of_idle_eq_next hp hexec
  have hstart : (latch (acceptOf i s)).ShowsNoResult := by
    rw [hacc]
    exact { showsNoResult_acceptAttempt bare s with }
  have hv := showsNoResult_run hstart hrun hbusy
  have hirq : v.irq = false := by simp [State.irq, hv.done]
  exact ⟨hv.result, hv.done, hirq, hv.errInfo, hv.data, hv.noFrame, hv.frame⟩

end Sys2Proof.Machine
end
